-- ==== Sys2Proof/Word.lean ====
section
/-! DEFINITION. The word types of the block: the widths 00_scope.md R7 and 10_state.md give. -/

namespace Sys2Proof

/-- A byte: "A *byte* is 8 bits" (R7). -/
abbrev Byte := BitVec 8

/-- A delay of `DELAY_BITS` = 16 bits, in ticks (R5). -/
abbrev Cycles := BitVec 16

/-- A reading of the 32-bit cycle counter, or a period in ticks (R5 `CYC_BITS`, R25, R34). -/
abbrev Ticks := BitVec 32

end Sys2Proof
end

