-- ==== Sys2Proof/Config.lean ====
section
/-! DEFINITION. What is fixed for the machine: the constants of 00_scope.md R5, the model arguments of R6, and
the free values, which the spec leaves open. -/

namespace Sys2Proof

/-! ## Constants (R5), sizes in bytes -/

/-- Bytes per ring entry `(register, value, delay_hi, delay_lo)` (R5 `ENTRY_BYTES`). -/
def Config.entryBytes : Nat := 4
/-- Entries of one frame, the burst of one drain service (R5 `FRAME_ENTRIES`). -/
def Config.frameEntries : Nat := 28
/-- `FRAME_BYTES` = 28 × 4 (R5). -/
def Config.frameBytes : Nat := 112
/-- `RING_DEFAULT_BYTES` = 20 frames (R5). -/
def Config.ringDefaultBytes : Nat := 2240
/-- `RING_STEP_BYTES` = 20 frames (R5). -/
def Config.ringStepBytes : Nat := 2240
/-- `RING_MAX_BYTES` = 150 frames (R5). -/
def Config.ringMaxBytes : Nat := 16800
/-- `HEADROOM_BYTES` = 4 frames (R5). -/
def Config.headroomBytes : Nat := 448
/-- `LOW_FILL_BYTES` = half a frame (R5). -/
def Config.lowFillBytes : Nat := 56
/-- `FULL_PCT` (R5). -/
def Config.fullPct : Nat := 90
/-- `HIST_LEN` (R5). -/
def Config.histLen : Nat := 8
/-- `MULTI_TIMEOUT` in frames (R5). -/
def Config.multiTimeout : Nat := 30
/-- `MAX_CHIPS` (R6, decided). -/
def Config.maxChips : Nat := 4
/-- `CLAMP_LO_DIV` (R5). -/
def Config.clampLoDiv : Nat := 6
/-- `CLAMP_HI_NUM` (R5). -/
def Config.clampHiNum : Nat := 12
/-- `CLAMP_HI_DEN` (R5). -/
def Config.clampHiDen : Nat := 10
/-- `HYST` in ticks (R5). -/
def Config.hyst : Nat := 50
/-- `EMERG_DIV`: the cut is one quarter (R5). -/
def Config.emergDiv : Nat := 4
/-- `IDLE_LIMIT` (R5). -/
def Config.idleLimit : Nat := 100
/-- `RATE_MIN` (R6, decided). -/
def Config.rateMin : Nat := 1
/-- `WINDOW_BYTES` of the bus window and of `shadow` (R5). -/
def Config.windowBytes : Nat := 128
/-- `VOL_OFFSET` (R5). -/
def Config.volOffset : BitVec 5 := 0x18

/-! ## Model arguments (R6) -/

/-- The parameters R6 leaves as model arguments. The state carries them, so a statement about every state
ranges over every value of them; no instruction writes them (the environment changes `clkHz`, R267). -/
structure Config.Params where
  /-- `CLK_HZ`, ticks per second. -/
  clkHz : Nat
  /-- `T_XFER`, ticks the pins stay asserted for one transfer, at least 1 (U15). -/
  tXfer : Nat
  /-- `RATE_DEFAULT`, the drain period when no baseline is known. -/
  rateDefault : Ticks
  /-- `NUDGE_FULL_DIV`. -/
  nudgeFullDiv : Nat
  /-- `NUDGE_LOW_DIV`. -/
  nudgeLowDiv : Nat
  /-- `SUBOP_MUTE`. -/
  subopMute : BitVec 5
  /-- `SUBOP_UNMUTE`. -/
  subopUnmute : BitVec 5
  /-- `SUBOP_RESET_SID`. -/
  subopResetSid : BitVec 5
  /-- `RES_PULSE_TICKS`, the length of a pulse on `RES_n` (U4). -/
  resPulseTicks : Nat
  deriving DecidableEq, Repr

/-! ## Free values: constants with no body, so no proof can see what they are -/

/-- FREE VALUE (log 8, U1, R66): the byte the chips answer to read transfer number `n`, whose first tick is
`tick`, on the selects `cs` and the address lines `a`: `BusRead(tick, cs, a)`. The number makes two reads with the
same label independent. -/
opaque Config.busRead (n : Nat) (tick : Ticks) (cs : BitVec 2) (a : BitVec 6) : Byte

/-- FREE VALUE (log 4, U2, U19): what a byte of `ring.mem` reads as that nothing has written since the store was
last discarded; `epoch` counts the discards. -/
opaque Config.unwrittenByte (epoch offset : Nat) : Byte

/-- FREE VALUE (log 9, U4): `RES_PULSE_TICKS`, which R6 leaves unspecified. -/
opaque Config.resPulseTicks : Nat

/-- The defaults of R6 (log 5). -/
def Config.Params.default : Config.Params where
  clkHz := 1000000
  tXfer := 1
  rateDefault := 20000
  nudgeFullDiv := 8
  nudgeLowDiv := 16
  subopMute := 0x0C
  subopUnmute := 0x0D
  subopResetSid := 0x0E
  resPulseTicks := Config.resPulseTicks

/-- What a model argument must satisfy: a transfer takes at least one tick (U15), the default period is at least
`RATE_MIN` (R25), and the two divisors of the nudge are not zero (R212). -/
def Config.Params.ok (p : Config.Params) : Bool :=
  decide (1 ≤ p.tXfer) && decide (Config.rateMin ≤ p.rateDefault.toNat) && decide (1 ≤ p.nudgeFullDiv) &&
    decide (1 ≤ p.nudgeLowDiv)

end Sys2Proof
end

