-- ==== Sys2Proof/Syntax.lean ====
section
/-! DEFINITION. The instructions (one constructor per row of the opcode table), the words of the five encoded
interfaces of 30_encoding.md, and the four bus operations as requests. -/

namespace Sys2Proof

/-- The four operations `req.op` selects (30_encoding.md R99). -/
inductive BusOp where
  | write
  | cycledWrite
  | cycledRead
  | cycledDelay
  deriving DecidableEq, Repr

/-- One bus operation with the operands it uses (R99). -/
inductive BusRequest where
  | write (address data : Byte)
  | cycledWrite (address data : Byte) (cycles : Cycles)
  | cycledRead (address : Byte) (cycles : Cycles)
  | cycledDelay (cycles : Cycles)
  deriving DecidableEq, Repr

/-- The instructions: command buffers (CMD, CFG), requests (REQ), ASID events (AEV), the timer's firing and the
ring entry (30_encoding.md R108). -/
inductive Instr where
  /-- `CMD_WRITE`: the count field and the bytes after byte 0 (R93). -/
  | cmdWrite (n : BitVec 6) (operands : List Byte)
  /-- `CMD_READ`: byte 1, absent in a short buffer (R95, R104). -/
  | cmdRead (address : Option Byte)
  /-- `CMD_CYCLED_WRITE`: the count field and the bytes after byte 0 (R94). -/
  | cmdCycledWrite (n : BitVec 6) (operands : List Byte)
  | cmdPause
  | cmdUnpause
  | cmdMute
  | cmdUnmute
  | cmdResetSid
  | cmdDisableSid
  | cmdEnableSid
  | cmdClearBus
  /-- `CMD_CONFIG` with a config command no CFG row names, or none (R97, R104): the bytes after byte 0. -/
  | cmdConfig (sub : List Byte)
  | cmdResetMcu
  | cmdBootloader
  /-- `CMD_UNASSIGNED`: a sub-opcode no other row names (R159). -/
  | cmdUnassigned (sub : BitVec 5)
  /-- `CFG_READ_CONFIG`: the bytes after byte 1. -/
  | cfgReadConfig (operands : List Byte)
  | cfgRunAutoDetect (operands : List Byte)
  /-- `CFG_PLAYER`: the low five bits of byte 1 (0xE0 to 0xFF) and the bytes after it. -/
  | cfgPlayer (control : BitVec 5) (operands : List Byte)
  | busWrite (address data : Byte)
  | busCycledWrite (address data : Byte) (cycles : Cycles)
  | busCycledRead (address : Byte) (cycles : Cycles)
  | busCycledDelay (cycles : Cycles)
  | evPlayStart
  | evPlayStop
  | evSetBaseRate (r : Ticks)
  | evFrame (k : BitVec 2)
  | evPush (register value : Byte) (delay : Cycles)
  /-- `EV_TIMER`: the firing of the drain timer, served through the gate of R178. -/
  | evTimer
  /-- `RING_ENTRY`: one entry, executed by the drain service as a cycled write (R101, R176). -/
  | ringEntry (register value : Byte) (delay : Cycles)
  deriving DecidableEq, Repr

/-- The request port's operand registers as one word (R20, R99). -/
structure ReqWord where
  op : BitVec 2
  addr : Byte
  data : Byte
  cycles : Cycles
  deriving DecidableEq, Repr

/-- A word of the ASID event port: the 3-bit code and its operand lines (R102). -/
structure EventWord where
  code : BitVec 3
  r : Ticks
  k : BitVec 2
  register : Byte
  value : Byte
  delay : Cycles
  deriving DecidableEq, Repr

/-- A word of one of the encoded interfaces of 30_encoding.md: a command buffer (CMD and CFG), a request (REQ), an
event (AEV), the internal firing, a ring entry in its 32-bit view (ENT, R101). -/
inductive Code where
  | cmd (buf : List Byte)
  | req (w : ReqWord)
  | aev (w : EventWord)
  | timer
  | ent (w : BitVec 32)
  deriving DecidableEq, Repr

/-- The formats of the opcode table (R108), CFG being a refinement of CMD. -/
inductive Format where
  | cmd
  | req
  | aev
  | internal
  | ent
  deriving DecidableEq, Repr

/-- The interface a word belongs to. -/
def Code.format : Code → Format
  | .cmd _ => .cmd
  | .req _ => .req
  | .aev _ => .aev
  | .timer => .internal
  | .ent _ => .ent

/-- The interface an instruction is encoded on (R108). -/
def Instr.format : Instr → Format
  | .cmdWrite .. | .cmdRead .. | .cmdCycledWrite .. | .cmdPause | .cmdUnpause | .cmdMute | .cmdUnmute
  | .cmdResetSid | .cmdDisableSid | .cmdEnableSid | .cmdClearBus | .cmdConfig .. | .cmdResetMcu
  | .cmdBootloader | .cmdUnassigned .. | .cfgReadConfig .. | .cfgRunAutoDetect .. | .cfgPlayer .. => .cmd
  | .busWrite .. | .busCycledWrite .. | .busCycledRead .. | .busCycledDelay .. => .req
  | .evPlayStart | .evPlayStop | .evSetBaseRate .. | .evFrame .. | .evPush .. => .aev
  | .evTimer => .internal
  | .ringEntry .. => .ent

end Sys2Proof
end

