-- ==== Sys2Proof/WellFormed.lean ====
section
/-! DEFINITION. Well-formed instructions: those some word of their interface stands for, under given model
arguments (30_encoding.md R96 to R98, 41_command_port.md R154). -/

namespace Sys2Proof

/-- The three sub-opcodes that are model arguments (R98). -/
def Config.Params.claimed (p : Config.Params) : List (BitVec 5) :=
  [p.subopMute, p.subopUnmute, p.subopResetSid]

/-- The sub-opcodes with a fixed name and value: CONFIG, RESET_MCU and the six names of R158. -/
def Config.fixedSubops : List (BitVec 5) :=
  [0x12, 0x13, 0x0A, 0x0B, 0x0F, 0x10, 0x11, 0x14]

/-- The config commands that have a row of their own: 0x30, 0x5B and 0xE0 to 0xFF (R97). -/
def isNamedConfig (c : Byte) : Bool := c == 0x30 || c == 0x5B || decide (0xE0 ≤ c.toNat)

/-- Well-formed under the arguments `p`. A row of the command class is well-formed when its sub-opcode reaches it
through the order of R154, in which CONFIG comes first, then the three arguments, then the fixed names. -/
def WellFormed (p : Config.Params) : Instr → Bool
  | .cmdMute => decide (p.subopMute ≠ 0x12)
  | .cmdUnmute => decide (p.subopUnmute ≠ 0x12) && decide (p.subopUnmute ≠ p.subopMute)
  | .cmdResetSid =>
    decide (p.subopResetSid ≠ 0x12) && decide (p.subopResetSid ≠ p.subopMute) &&
      decide (p.subopResetSid ≠ p.subopUnmute)
  | .cmdPause => !p.claimed.contains 0x0A
  | .cmdUnpause => !p.claimed.contains 0x0B
  | .cmdDisableSid => !p.claimed.contains 0x0F
  | .cmdEnableSid => !p.claimed.contains 0x10
  | .cmdClearBus => !p.claimed.contains 0x11
  | .cmdResetMcu => !p.claimed.contains 0x13
  | .cmdBootloader => !p.claimed.contains 0x14
  | .cmdUnassigned sub => !p.claimed.contains sub && !Config.fixedSubops.contains sub
  | .cmdConfig sub => !(sub.head?.any isNamedConfig)
  | .cmdWrite .. | .cmdRead .. | .cmdCycledWrite .. => true
  | .cfgReadConfig .. | .cfgRunAutoDetect .. | .cfgPlayer .. => true
  | .busWrite .. | .busCycledWrite .. | .busCycledRead .. | .busCycledDelay .. => true
  | .evPlayStart | .evPlayStop | .evSetBaseRate .. | .evFrame .. | .evPush .. => true
  | .evTimer => true
  | .ringEntry .. => true

end Sys2Proof
end

