-- ==== Sys2Proof/Decode.lean ====
section
/-! DEFINITION. Decoding the words of 30_encoding.md, total on any word and rejecting by name, and after it the
encoder. -/

namespace Sys2Proof

/-- Why a word stands for no instruction. -/
inductive Reject where
  /-- A command buffer of no bytes: R90 has `len >= 1`. -/
  | emptyBuffer
  /-- An event code 5 to 7: `EVENT_UNASSIGNED` of R231. -/
  | eventUnassigned
  deriving DecidableEq, Repr

/-- A 16-bit delay from its bytes, high byte first (R62, R106). -/
def joinDelay (hi lo : Byte) : Cycles := hi ++ lo

/-- The high byte of a delay. -/
def delayHi (d : Cycles) : Byte := d.extractLsb' 8 8

/-- The low byte of a delay. -/
def delayLo (d : Cycles) : Byte := d.extractLsb' 0 8

/-- Byte 1 of a CONFIG buffer selects the config command (R97). -/
def decodeConfig : List Byte → Instr
  | [] => .cmdConfig []
  | c :: operands =>
    if c = 0x30 then .cfgReadConfig operands
    else if c = 0x5B then .cfgRunAutoDetect operands
    else if c.extractLsb' 5 3 = 0b111 then .cfgPlayer (c.extractLsb' 0 5) operands
    else .cmdConfig (c :: operands)

/-- The command class by its sub-opcode, in the order of 41_command_port.md R154; `rest` are the bytes after
byte 0, which only CONFIG takes: those behind any other sub-opcode are ignored, and not forwarded with a reserved one
(DESIGN CHOICE, log 21). -/
def decodeCommand (p : Config.Params) (sub : BitVec 5) (rest : List Byte) : Instr :=
  if sub = 0x12 then decodeConfig rest
  else if sub = p.subopMute then .cmdMute
  else if sub = p.subopUnmute then .cmdUnmute
  else if sub = p.subopResetSid then .cmdResetSid
  else if sub = 0x13 then .cmdResetMcu
  else if sub = 0x0A then .cmdPause
  else if sub = 0x0B then .cmdUnpause
  else if sub = 0x0F then .cmdDisableSid
  else if sub = 0x10 then .cmdEnableSid
  else if sub = 0x11 then .cmdClearBus
  else if sub = 0x14 then .cmdBootloader
  else .cmdUnassigned sub

/-- A command buffer: the class is byte 0's top two bits (R91), the count its low six (R92), the sub-opcode its
low five, bit 5 being ignored in the command class (R96, 90_conflicts.md C1). -/
def decodeBuffer (p : Config.Params) : List Byte → Except Reject Instr
  | [] => .error .emptyBuffer
  | b :: rest =>
    let cls := b.extractLsb' 6 2
    let n := b.extractLsb' 0 6
    if cls = 0b00 then .ok (.cmdWrite n rest)
    else if cls = 0b01 then .ok (.cmdRead rest.head?)
    else if cls = 0b10 then .ok (.cmdCycledWrite n rest)
    else .ok (decodeCommand p (b.extractLsb' 0 5) rest)

/-- The operation a 2-bit `req.op` selects (R99). -/
def BusOp.ofCode (op : BitVec 2) : BusOp :=
  if op = 0b00 then .write
  else if op = 0b01 then .cycledWrite
  else if op = 0b10 then .cycledRead
  else .cycledDelay

/-- A request word (R99): unused operands are ignored; their lines are dropped here, and do not reach the request
registers (DESIGN CHOICE, log 24). -/
def decodeRequest (w : ReqWord) : Instr :=
  match BusOp.ofCode w.op with
  | .write => .busWrite w.addr w.data
  | .cycledWrite => .busCycledWrite w.addr w.data w.cycles
  | .cycledRead => .busCycledRead w.addr w.cycles
  | .cycledDelay => .busCycledDelay w.cycles

/-- An event word (R102): codes 5 to 7 are unassigned. -/
def decodeEvent (w : EventWord) : Except Reject Instr :=
  if w.code = 0 then .ok .evPlayStart
  else if w.code = 1 then .ok .evPlayStop
  else if w.code = 2 then .ok (.evSetBaseRate w.r)
  else if w.code = 3 then .ok (.evFrame w.k)
  else if w.code = 4 then .ok (.evPush w.register w.value w.delay)
  else .error .eventUnassigned

/-- A ring entry from its 32-bit view (R101): every pattern is legal. -/
def decodeEntry (w : BitVec 32) : Instr :=
  .ringEntry (w.extractLsb' 24 8) (w.extractLsb' 16 8) (w.extractLsb' 0 16)

/-- The instruction a word stands for, under the arguments `p`. -/
def decode (p : Config.Params) : Code → Except Reject Instr
  | .cmd buf => decodeBuffer p buf
  | .req w => .ok (decodeRequest w)
  | .aev w => decodeEvent w
  | .timer => .ok .evTimer
  | .ent w => .ok (decodeEntry w)

/-! ## The encoder -/

/-- Byte 0 of a command of the command class; bit 5, which the decoder ignores, is 0 (the table's match values). -/
def commandByte (sub : BitVec 5) : Byte := 0b110#3 ++ sub

/-- The 2-bit code of an operation (R99). -/
def BusOp.code : BusOp → BitVec 2
  | .write => 0b00
  | .cycledWrite => 0b01
  | .cycledRead => 0b10
  | .cycledDelay => 0b11

/-- An event word with every operand line at 0. -/
def EventWord.bare (code : BitVec 3) : EventWord :=
  { code, r := 0, k := 0, register := 0, value := 0, delay := 0 }

/-- The word of an instruction on its interface; operands the word does not use are 0. -/
def encode (p : Config.Params) : Instr → Code
  | .cmdWrite n operands => .cmd ((0b00#2 ++ n : Byte) :: operands)
  | .cmdRead address => .cmd (0x40 :: address.toList)
  | .cmdCycledWrite n operands => .cmd ((0b10#2 ++ n : Byte) :: operands)
  | .cmdPause => .cmd [commandByte 0x0A]
  | .cmdUnpause => .cmd [commandByte 0x0B]
  | .cmdMute => .cmd [commandByte p.subopMute]
  | .cmdUnmute => .cmd [commandByte p.subopUnmute]
  | .cmdResetSid => .cmd [commandByte p.subopResetSid]
  | .cmdDisableSid => .cmd [commandByte 0x0F]
  | .cmdEnableSid => .cmd [commandByte 0x10]
  | .cmdClearBus => .cmd [commandByte 0x11]
  | .cmdConfig sub => .cmd (commandByte 0x12 :: sub)
  | .cmdResetMcu => .cmd [commandByte 0x13]
  | .cmdBootloader => .cmd [commandByte 0x14]
  | .cmdUnassigned sub => .cmd [commandByte sub]
  | .cfgReadConfig operands => .cmd (commandByte 0x12 :: 0x30 :: operands)
  | .cfgRunAutoDetect operands => .cmd (commandByte 0x12 :: 0x5B :: operands)
  | .cfgPlayer control operands => .cmd (commandByte 0x12 :: (0b111#3 ++ control : Byte) :: operands)
  | .busWrite address data => .req { op := 0b00, addr := address, data := data, cycles := 0 }
  | .busCycledWrite address data cycles => .req { op := 0b01, addr := address, data := data, cycles := cycles }
  | .busCycledRead address cycles => .req { op := 0b10, addr := address, data := 0, cycles := cycles }
  | .busCycledDelay cycles => .req { op := 0b11, addr := 0, data := 0, cycles := cycles }
  | .evPlayStart => .aev (EventWord.bare 0)
  | .evPlayStop => .aev (EventWord.bare 1)
  | .evSetBaseRate r => .aev { EventWord.bare 2 with r := r }
  | .evFrame k => .aev { EventWord.bare 3 with k := k }
  | .evPush register value delay =>
    .aev { EventWord.bare 4 with register := register, value := value, delay := delay }
  | .evTimer => .timer
  | .ringEntry register value delay => .ent (register ++ value ++ delay)

/-! ## Words numbered as the opcode table numbers them -/

/-- The longest buffer a count field can speak of: byte 0 and 63 operand bytes (R92). -/
def maxBufferBytes : Nat := 64

/-- The `len` bytes of a number, its least significant byte first. -/
def bytesOf (len w : Nat) : List Byte :=
  (List.range len).map fun i => BitVec.ofNat 8 (w >>> (8 * i))

/-- The word of a table row of `nbits` bits (log 12): the firing has none, a request code 2, an event code 3, a
ring entry 32; every other length is a command buffer, zeros filling it up. Rows of the CFG, REQ and AEV formats
asked for as 8-bit words are read as byte 0 of a command buffer, the interface whose words are bytes. -/
def codeOfTableWord (nbits w : Nat) : Code :=
  if nbits = 0 then .timer
  else if nbits ≤ 2 then .req { op := BitVec.ofNat 2 w, addr := 0, data := 0, cycles := 0 }
  else if nbits < 8 then .aev (EventWord.bare (BitVec.ofNat 3 w))
  else if nbits = 32 then .ent (BitVec.ofNat 32 w)
  else .cmd (bytesOf maxBufferBytes w)

/-- The instruction the decoder reads from a table word, under the default arguments. -/
def decodeTableWord (nbits w : Nat) : Option Instr :=
  (decode Config.Params.default (codeOfTableWord nbits w)).toOption

end Sys2Proof
end

