-- ==== Sys2Proof/Machine/State.lean ====
section
/-! DEFINITION. The state of the block (10_state.md), as plain data, its value after reset (R38), and the reasons a
step can stop. -/

namespace Sys2Proof.Machine

/-- The request operand registers (R20). -/
structure Req where
  valid : Bool
  op : BusOp
  addr : Byte
  data : Byte
  cycles : Cycles
  deriving DecidableEq, Repr

/-- `seq.phase` (R22): `IDLE` = 0, `DELAY` = 1, `XFER` = 2. -/
inductive Phase where
  | idle
  | delay
  | xfer
  deriving DecidableEq, Repr

/-- The in-flight registers (R22). -/
structure Seq where
  phase : Phase
  op : BusOp
  /-- Delay ticks still to wait. -/
  dly : Cycles
  /-- Transfer ticks still to hold the pins. -/
  xcnt : Nat
  /-- 1 for a read transfer. -/
  rw : Bool
  /-- Bit 0 socket 1, bit 1 socket 2. -/
  cs : BitVec 2
  a : BitVec 6
  /-- The outgoing byte, after the mute filter. -/
  d : Byte
  sidx : BitVec 7
  /-- `tstart`, the label of the transfer's first tick. -/
  tstart : Ticks
  deriving DecidableEq, Repr

/-- The pins the sequencer drives (R35, R100). `d` is the byte the block drives, `none` where it does not drive
`D`. -/
structure Pins where
  a : BitVec 6
  d : Option Byte
  dOe : Bool
  rw : Bool
  cs1n : Bool
  cs2n : Bool
  deriving DecidableEq, Repr

/-- The idle word (R35, R100). -/
def Pins.idle : Pins := { a := 0, d := none, dOe := false, rw := true, cs1n := true, cs2n := true }

/-- One slot's routing: chip-select pattern and address mask (R24). -/
structure Route where
  cs : BitVec 2
  amask : Byte
  deriving DecidableEq, Repr

/-- The routing table `rt` (R24). -/
structure RouteTable where
  slot0 : Route
  slot1 : Route
  slot2 : Route
  slot3 : Route
  deriving DecidableEq, Repr

/-- Every slot inactive, mask 0x1F (R38). -/
def RouteTable.reset : RouteTable :=
  { slot0 := { cs := 0, amask := 0x1F }, slot1 := { cs := 0, amask := 0x1F },
    slot2 := { cs := 0, amask := 0x1F }, slot3 := { cs := 0, amask := 0x1F } }

/-- A byte memory: the listed bytes by address, addresses strictly rising. -/
abbrev Memory := List Host.Cell

/-- The ring: its backing store and control registers (R26, R32). `epoch` is the model's own: how often the store's
contents became unspecified (log 4). -/
structure Ring where
  mem : Memory
  epoch : Nat
  read : Nat
  write : Nat
  size : Nat
  deriving DecidableEq, Repr

/-- Drain interrupt and timer: flags (R23), timer registers (R25), idle counter (R27). `left` and `delivered` are
the model's own: the entries the running service may still take and those it took (log 6). -/
structure Drain where
  /-- `asid.active`. -/
  active : Bool
  irqPending : Bool
  irqMask : Bool
  inService : Bool
  irqPeriod : Ticks
  irqCnt : Ticks
  idleCount : Nat
  left : Nat
  delivered : Nat
  deriving DecidableEq, Repr

/-- Rate control: rate registers (R25), chip estimate (R27), arrival history (R28, R29). -/
structure Rate where
  correctedRate : Ticks
  baseRate : Ticks
  rateExplicit : Bool
  /-- The arrival history, oldest first; `hist_count` is its length. -/
  hist : List Ticks
  lastArrival : Ticks
  lastValid : Bool
  chipsEst : Nat
  multiAge : Nat
  deriving DecidableEq, Repr

/-- The model's own: where the primary context stands inside one command (R150): the operations it has still to
present, and whether it owes the reply of a read (log 6). -/
structure Primary where
  todo : List BusRequest
  replyDue : Bool
  deriving DecidableEq, Repr

/-- One event of the bus trace (R132). -/
inductive BusEvent where
  | write (t : Ticks) (cs : BitVec 2) (a : BitVec 6) (d : Byte)
  | read (t : Ticks) (cs : BitVec 2) (a : BitVec 6) (v : Byte)
  deriving DecidableEq, Repr

/-- What a command hands to the environment (R104): a reserved sub-opcode, or a CONFIG sub-buffer. DESIGN CHOICE
(log 21): R104 says only that a reserved sub-opcode is forwarded; the bytes after it in the buffer do not go along. -/
inductive Forwarded where
  | subop (sub : BitVec 5)
  | config (sub : List Byte)
  deriving DecidableEq, Repr

/-- What the environment does to the block (R11 f). -/
inductive EnvAction where
  /-- The routing swap (R71), and the end of its critical section. -/
  | swap (rt : RouteTable)
  /-- A clock-rate change (R267). -/
  | setClock (hz : Nat)
  /-- A pulse on `RES_n` after detection or a preset change (R244). -/
  | pulseReset
  /-- The environment enters the critical section of a routing swap (R71, R37), which then follows `wait` boundaries
  later, once the sequencer is idle (log 23). -/
  | enterSwap (wait : Nat) (rt : RouteTable)
  /-- Power-up, or a reboot after flash corruption (R260). -/
  | powerOn
  deriving DecidableEq, Repr

/-- One input. -/
inductive Item where
  /-- A word at one of the ports. -/
  | code (c : Code)
  /-- An instruction offered while the primary context was held, still to be taken (U5). -/
  | held (i : Instr)
  | env (a : EnvAction)
  deriving DecidableEq, Repr

/-- An input and how many tick boundaries pass before it is offered (R126, D44). -/
structure Input where
  wait : Nat
  item : Item
  deriving DecidableEq, Repr

/-- When an agent in the middle of a burst or of a service presents its next operation (R126, D44, log 20): for each
operation in turn, how many boundaries pass, once nothing is outstanding, before it is presented; none where the list
is at its end. -/
structure Pace where
  /-- The primary context, between the operations of a burst. -/
  primary : List Nat
  /-- The drain handler, before each entry. -/
  handler : List Nat
  deriving DecidableEq, Repr

/-- The state. The fields from `prim` on are the model's own. -/
structure State where
  /-- The model arguments of R6. -/
  par : Config.Params
  cyc : Ticks
  req : Req
  result : Byte
  resultValid : Bool
  seq : Seq
  pins : Pins
  /-- Ticks the pulse on `RES_n` still lasts; the line is at 1 exactly when this is 0 (R244). -/
  resLeft : Nat
  mute : Bool
  rt : RouteTable
  /-- `shadow` (R31); an unlisted address reads 0x00. -/
  shadow : Memory
  ring : Ring
  drain : Drain
  rate : Rate
  ovf : Bool
  ovfCount : Ticks
  prim : Primary
  /-- The primary context has just been released by a service and takes its step next (R275). -/
  resumed : Bool
  inbox : List Input
  pace : Pace
  /-- The bus trace, in the order of the events (R132). -/
  trace : List BusEvent
  /-- The reply bytes of `CMD_READ` (R152), in order. -/
  replies : List Byte
  /-- What commands handed to the environment (R104), in order. -/
  forwarded : List Forwarded
  /-- How many read transfers the chips have answered (R66). -/
  reads : Nat
  deriving DecidableEq, Repr

/-- No operation of the block faults (R230): there is no constructor. -/
inductive Fault where
  deriving DecidableEq, Repr

/-- Why a step has no next state. -/
inductive Refusal where
  /-- Raised by an arm of `exec` whose instruction has no meaning yet: none. Safe. -/
  | notModelled (mnemonic : String)
  /-- Raised by the four bus operations when they are presented while another request is still outstanding:
  the hardware does not detect it and what it does is undefined (R265, U6 `refuse`). Safe. -/
  | secondRequester
  deriving DecidableEq, Repr

/-- Unlisted bytes of `ring.mem` are unspecified (R38); the cursors and the size as R38 gives them. -/
def Ring.reset : Ring :=
  { mem := [], epoch := 0, read := 0, write := 0, size := Config.ringDefaultBytes }

/-- The sequencer after reset: `IDLE` (R38); the other registers log 1. -/
def Seq.reset : Seq :=
  { phase := .idle, op := .write, dly := 0, xcnt := 0, rw := false, cs := 0, a := 0, d := 0, sidx := 0,
    tstart := 0 }

/-- The machine right after power-on reset (R38, R261, R262), with the default arguments of R6. The values R38
leaves unspecified are log 1. -/
def State.reset : State where
  par := Config.Params.default
  cyc := 0
  req := { valid := false, op := .write, addr := 0, data := 0, cycles := 0 }
  result := 0
  resultValid := false
  seq := Seq.reset
  pins := Pins.idle
  resLeft := 0
  mute := false
  rt := RouteTable.reset
  shadow := []
  ring := Ring.reset
  drain :=
    { active := false, irqPending := false, irqMask := false, inService := false,
      irqPeriod := Config.Params.default.rateDefault, irqCnt := 0, idleCount := 0, left := 0, delivered := 0 }
  rate :=
    { correctedRate := Config.Params.default.rateDefault, baseRate := 0, rateExplicit := false, hist := [],
      lastArrival := 0, lastValid := false, chipsEst := 1, multiAge := Config.multiTimeout }
  ovf := false
  ovfCount := 0
  prim := { todo := [], replyDue := false }
  resumed := false
  inbox := []
  pace := { primary := [], handler := [] }
  trace := []
  replies := []
  forwarded := []
  reads := 0

end Sys2Proof.Machine
end

