-- ==== Sys2Proof/Machine/Memory.lean ====
section
/-! DEFINITION. The byte memories: `shadow` (R31) and `ring.mem` (R32, R63), kept as listed bytes with strictly
rising addresses. -/

namespace Sys2Proof.Machine

/-- The byte listed at an address. -/
def Memory.lookup : Memory → Nat → Option Byte
  | [], _ => none
  | (k, v) :: m, a => if a = k then some v else Memory.lookup m a

/-- List a byte at an address, replacing the one listed there. -/
def Memory.insert : Memory → Nat → Byte → Memory
  | [], a, v => [(a, v)]
  | (k, w) :: m, a, v =>
    if a < k then (a, v) :: (k, w) :: m
    else if a = k then (a, v) :: m
    else (k, w) :: Memory.insert m a v

/-- Unlist an address. -/
def Memory.erase : Memory → Nat → Memory
  | [], _ => []
  | (k, w) :: m, a => if a = k then m else (k, w) :: Memory.erase m a

/-- The canonical form: addresses strictly rising. -/
def Memory.wf : Memory → Bool
  | [] => true
  | c :: m => m.all (fun d => decide (c.1 < d.1)) && Memory.wf m

/-! ## The shadow memory: an unlisted address reads 0x00, its reset value (R38) -/

/-- `shadow[i]` (R31). -/
def shadowByte (m : Memory) (i : BitVec 7) : Byte := (Memory.lookup m i.toNat).getD 0

/-- `shadow[i] <- v` (R67): writing 0x00 unlists the address. -/
def shadowStore (m : Memory) (i : BitVec 7) (v : Byte) : Memory :=
  if v = 0 then Memory.erase m i.toNat else Memory.insert m i.toNat v

/-- The canonical form of `shadow`: rising, inside the window, no listed 0x00. -/
def shadowWf (m : Memory) : Bool :=
  Memory.wf m && m.all (fun c => decide (c.1 < Config.windowBytes) && decide (c.2 ≠ 0))

/-! ## The ring store: an unlisted byte holds no value of its own and reads as a free value (R38, U19, log 4) -/

/-- `ring.mem[o]` (R32). -/
def ringByte (r : Ring) (o : Nat) : Byte :=
  (Memory.lookup r.mem o).getD (Config.unwrittenByte r.epoch o)

/-- `ring.mem[o] <- v`. -/
def ringStore (r : Ring) (o : Nat) (v : Byte) : Ring := { r with mem := Memory.insert r.mem o v }

/-- The canonical form of `ring.mem`: rising, inside the backing store. -/
def ringMemWf (m : Memory) : Bool :=
  Memory.wf m && m.all (fun c => decide (c.1 < Config.ringMaxBytes))

/-- The four stores of an entry at offset `o`, in the byte order of R63. -/
def storeEntry (r : Ring) (o : Nat) (register value : Byte) (delay : Cycles) : Ring :=
  ringStore (ringStore (ringStore (ringStore r o register) (o + 1) value) (o + 2) (delayHi delay)) (o + 3)
    (delayLo delay)

/-- The 32-bit view of the entry at offset `o` (R63, R101). -/
def entryWord (r : Ring) (o : Nat) : BitVec 32 :=
  ringByte r o ++ ringByte r (o + 1) ++ ringByte r (o + 2) ++ ringByte r (o + 3)

end Sys2Proof.Machine
end

