-- ==== Sys2Proof/Machine/Operands.lean ====
section
/-! DEFINITION. Operand forms: burst groups (R92 to R94), address resolution (R60, R61), the mute filter (R121), the
pin word (R100), ring offsets (R75). -/

namespace Sys2Proof.Machine

/-! ## Burst operands -/

/-- The wholly present pairs of a byte list, in order (R93, R151). -/
def pairsOf : List Byte → List BusRequest
  | address :: data :: rest => .write address data :: pairsOf rest
  | _ => []

/-- The wholly present quads of a byte list, in order, the delay high byte first (R94, R153). -/
def quadsOf : List Byte → List BusRequest
  | address :: data :: hi :: lo :: rest => .cycledWrite address data (joinDelay hi lo) :: quadsOf rest
  | _ => []

/-- How many operations the count field asks for with groups of `g` bytes: `n = 0` is one (R92). -/
def groupCount (n : BitVec 6) (g : Nat) : Nat := if n = 0 then 1 else n.toNat / g

/-- The operations of a write burst: the groups asked for that are wholly present (R151). -/
def writeBurst (n : BitVec 6) (operands : List Byte) : List BusRequest :=
  (pairsOf operands).take (groupCount n 2)

/-- The operations of a cycled-write burst (R153). -/
def cycledWriteBurst (n : BitVec 6) (operands : List Byte) : List BusRequest :=
  (quadsOf operands).take (groupCount n 4)

/-! ## Address resolution -/

/-- Why an operation is skipped (R231). -/
inductive SkipReason where
  | slotInactive
  | slotMalformed
  deriving DecidableEq, Repr

/-- What `Resolve` returns (R61). -/
inductive Resolved where
  | skip (reason : SkipReason)
  | active (cs : BitVec 2) (a : BitVec 6) (sidx : BitVec 7)
  deriving DecidableEq, Repr

/-- The routing of one slot. -/
def RouteTable.slot (rt : RouteTable) (s : BitVec 2) : Route :=
  if s = 0 then rt.slot0 else if s = 1 then rt.slot1 else if s = 2 then rt.slot2 else rt.slot3

/-- The low seven bits of an address: the index in the bus window (R60). -/
def windowIndex (address : Byte) : BitVec 7 := address.extractLsb' 0 7

/-- The slot of a window index (R60). -/
def slotOf (a7 : BitVec 7) : BitVec 2 := a7.extractLsb' 5 2

/-- The register offset inside the slot (R60). -/
def offsetOf (a7 : BitVec 7) : BitVec 5 := a7.extractLsb' 0 5

/-- The two masks with a meaning (R24). -/
def legalMask (m : Byte) : Bool := decide (m = 0x1F) || decide (m = 0x3F)

/-- The address lines: the low six bits of the masked window index (R61). -/
def addressLines (a7 : BitVec 7) (m : Byte) : BitVec 6 := (a7.setWidth 8 &&& m).extractLsb' 0 6

/-- `Resolve(address)` (R61). -/
def resolve (rt : RouteTable) (address : Byte) : Resolved :=
  let a7 := windowIndex address
  let route := rt.slot (slotOf a7)
  if route.cs = 0 then .skip .slotInactive
  else if legalMask route.amask = false then .skip .slotMalformed
  else .active route.cs (addressLines a7 route.amask) a7

/-- `MuteFilter(a7, data)` (R121). -/
def muteFilter (mute : Bool) (a7 : BitVec 7) (data : Byte) : Byte :=
  if mute = true ∧ offsetOf a7 = Config.volOffset then data &&& 0xF0 else data

/-- The pin word of a transfer, from the latches (R100). -/
def Pins.ofSeq (q : Seq) : Pins :=
  { a := q.a, d := if q.rw then none else some q.d, dOe := !q.rw, rw := q.rw,
    cs1n := !q.cs.getLsbD 0, cs2n := !q.cs.getLsbD 1 }

/-- Bits 17 to 8 of the pin word: `D_OE`, `RW`, `CS2_n`, `CS1_n`, `A` (R100). -/
def Pins.control (p : Pins) : BitVec 10 :=
  BitVec.ofBool p.dOe ++ BitVec.ofBool p.rw ++ BitVec.ofBool p.cs2n ++ BitVec.ofBool p.cs1n ++ p.a

/-! ## Ring offsets (R75) -/

/-- `Next(o)`. -/
def Ring.next (r : Ring) (o : Nat) : Nat := (o + Config.entryBytes) % r.size

/-- `Fill()`. -/
def Ring.fill (r : Ring) : Nat :=
  if r.read ≤ r.write then r.write - r.read else r.size - r.read + r.write

/-- `Headroom()`. -/
def Ring.headroom (r : Ring) : Nat := r.size - Config.entryBytes - r.fill

end Sys2Proof.Machine
end

