-- ==== Sys2Proof/Machine/Flags.lean ====
section
/-! DEFINITION. The derived signals and flag computations: who may act (R126, R178, R234), the overflow flags (R172,
R242), the mask of the critical section (R70, R233). -/

namespace Sys2Proof.Machine

/-- `busy` (R22). -/
def busy (s : State) : Bool := decide (s.seq.phase ≠ .idle)

/-- No operation is in flight and none waits: `seq.phase = IDLE` and `req.valid = 0`. -/
def quiet (s : State) : Bool := !busy s && !s.req.valid

/-- The interrupt gate (R178). -/
def gateOpen (s : State) : Bool :=
  s.drain.irqPending && s.drain.active && !s.drain.irqMask && !s.drain.inService && quiet s

/-- The primary context is inside a command: it has operations still to present, or owes a reply (R150). -/
def midCommand (s : State) : Bool := !s.prim.todo.isEmpty || s.prim.replyDue

/-- The primary context may take a new input: it is not held by a service (R178), none of its operations is
outstanding (R126), and it is not inside a command (R150, R161). -/
def primaryFree (s : State) : Bool := !s.drain.inService && quiet s && !midCommand s

/-- The drain service may take its next entry (R176): the handler runs, its last operation has completed, it has
entries left to take, and the ring is not empty. -/
def entryReady (s : State) : Bool :=
  s.drain.inService && quiet s && decide (0 < s.drain.left) && decide (s.ring.read ≠ s.ring.write)

/-- `RES_n`: at 0 while a pulse lasts (R244). -/
def resN (s : State) : Bool := decide (s.resLeft = 0)

/-- `ovf_count` after one more drop: it saturates at 2^32 − 1 (R172). -/
def saturatingSucc (n : Ticks) : Ticks := if n = BitVec.allOnes 32 then n else n + 1

/-- The flags of a dropped push (R172). -/
def recordDrop (s : State) : State := { s with ovf := true, ovfCount := saturatingSucc s.ovfCount }

/-- `irq_mask <- b`. -/
def setMask (b : Bool) (s : State) : State := { s with drain.irqMask := b }

/-- A critical section in zero ticks: `irq_mask <- 1`, the body, `irq_mask <- 0` (R174, R175, R71). -/
def critical (body : State → State) (s : State) : State := setMask false (body (setMask true s))

/-- The body with `irq_mask` at 1 for its duration, the flag being afterwards what it was (R267). DESIGN CHOICE (log
25): the duration, which the spec does not give, is zero ticks. -/
def maskedDuring (body : State → State) (s : State) : State := setMask s.drain.irqMask (body (setMask true s))

/-- `GAP_TICKS` = `CLK_HZ` div 2 (R6). -/
def gapTicks (s : State) : Nat := s.par.clkHz / 2

/-- `hist_count` (R28). -/
def histCount (s : State) : Nat := s.rate.hist.length

end Sys2Proof.Machine
end

