-- ==== Sys2Proof/Machine/Ops.lean ====
section
/-! DEFINITION. The shared operations: the sequencer (R126, R127), the tick boundary (R177, R234), the ring (R170 to
R175), rate control (R203 to R211), entering and leaving a drain service (R178, R235, R236: what this block has in the
place of taking an exception and returning from one), and power-on reset (R260). -/

namespace Sys2Proof.Machine

/-! ## The sequencer -/

/-- `EnterXfer(t)` (R127), at the boundary where `cyc` is `t`. -/
def enterXfer (s : State) : State :=
  { s with
    seq := { s.seq with phase := .xfer, xcnt := s.par.tXfer, tstart := s.cyc }
    pins := Pins.ofSeq s.seq
    trace := if s.seq.rw then s.trace else s.trace ++ [.write s.cyc s.seq.cs s.seq.a s.seq.d] }

/-- The start of an accepted transfer's delay, or of the transfer itself when there is none (R127). -/
def startTransfer (n : Cycles) (s : State) : State :=
  if n = 0 then enterXfer s else { s with seq := { s.seq with phase := .delay, dly := n } }

/-- Acceptance of a write with delay `n`: the shadow takes the unfiltered byte, the latches the filtered one (R67,
R120, R127). -/
def acceptWrite (n : Cycles) (s : State) : State :=
  match resolve s.rt s.req.addr with
  | .skip _ => s
  | .active cs a sidx =>
    startTransfer n
      { s with
        shadow := shadowStore s.shadow sidx s.req.data
        seq := { s.seq with cs := cs, a := a, sidx := sidx, rw := false,
                            d := muteFilter s.mute sidx s.req.data } }

/-- Acceptance of a read: a skipped one returns 0 at once (R21, R127). -/
def acceptRead (s : State) : State :=
  match resolve s.rt s.req.addr with
  | .skip _ => { s with result := 0, resultValid := true }
  | .active cs a sidx =>
    startTransfer s.req.cycles { s with seq := { s.seq with cs := cs, a := a, sidx := sidx, rw := true } }

/-- Acceptance of a delay (R127). -/
def acceptDelay (s : State) : State :=
  if s.req.cycles = 0 then s else { s with seq := { s.seq with phase := .delay, dly := s.req.cycles } }

/-- `Accept(t)` (R127). -/
def accept (s : State) : State :=
  let s := { s with req := { s.req with valid := false }, resultValid := false,
                    seq := { s.seq with op := s.req.op } }
  match s.req.op with
  | .write => acceptWrite 0 s
  | .cycledWrite => acceptWrite s.req.cycles s
  | .cycledRead => acceptRead s
  | .cycledDelay => acceptDelay s

/-- The end of a transfer: a read takes the byte on `D` (R66, R127); then the pins are idle. -/
def endXfer (s : State) : State :=
  let s :=
    if s.seq.rw then
      let v := Config.busRead s.reads s.seq.tstart s.seq.cs s.seq.a
      { s with trace := s.trace ++ [.read s.seq.tstart s.seq.cs s.seq.a v], result := v, resultValid := true,
               shadow := shadowStore s.shadow s.seq.sidx v, reads := s.reads + 1 }
    else s
  { s with pins := Pins.idle, seq := { s.seq with phase := .idle } }

/-- The part of `SeqTick(t)` that advances the operation in flight (R127). -/
def advanceSeq (s : State) : State :=
  match s.seq.phase with
  | .idle => s
  | .delay =>
    let s := { s with seq := { s.seq with dly := s.seq.dly - 1 } }
    if s.seq.dly = 0 then
      if s.seq.op = .cycledDelay then { s with seq := { s.seq with phase := .idle } } else enterXfer s
    else s
  | .xfer =>
    let s := { s with seq := { s.seq with xcnt := s.seq.xcnt - 1 } }
    if s.seq.xcnt = 0 then endXfer s else s

/-- `SeqTick(t)` (R127). -/
def seqTick (s : State) : State :=
  let s := advanceSeq s
  if s.seq.phase = .idle ∧ s.req.valid = true then accept s else s

/-- A requester writes `req.op` and the operand registers its operation uses, and sets `req.valid` (R20, R99, R126).
DESIGN CHOICE (log 24): a register the operation does not use keeps the value it had; the spec says only that the
operation ignores it. -/
def writeRequest (r : BusRequest) (s : State) : State :=
  match r with
  | .write address data => { s with req := { s.req with valid := true, op := .write, addr := address, data := data } }
  | .cycledWrite address data cycles =>
    { s with req := { valid := true, op := .cycledWrite, addr := address, data := data, cycles := cycles } }
  | .cycledRead address cycles =>
    { s with req := { s.req with valid := true, op := .cycledRead, addr := address, cycles := cycles } }
  | .cycledDelay cycles => { s with req := { s.req with valid := true, op := .cycledDelay, cycles := cycles } }

/-- A request is presented: it is accepted at once while the sequencer is idle, and waits otherwise (R126, R234
step 5). -/
def present (r : BusRequest) (s : State) : State :=
  let s := writeRequest r s
  if s.seq.phase = .idle then accept s else s

/-! ## The tick boundary -/

/-- `TimerTick()` (R177, R240). -/
def timerTick (s : State) : State :=
  if s.drain.active then
    if s.drain.irqPeriod.toNat ≤ s.drain.irqCnt.toNat + 1 then
      { s with drain := { s.drain with irqCnt := 0, irqPeriod := s.rate.correctedRate, irqPending := true } }
    else { s with drain := { s.drain with irqCnt := s.drain.irqCnt + 1 } }
  else s

/-- One boundary passes for the input that comes next (D44). -/
def elapse : List Input → List Input
  | [] => []
  | i :: rest => { i with wait := i.wait - 1 } :: rest

/-- One boundary passes for an agent that waits to present its next operation. -/
def elapsePace : List Nat → List Nat
  | [] => []
  | n :: rest => (n - 1) :: rest

/-- One boundary passes for the agent whose turn it is, when nothing is outstanding (R126): the handler of a running
service, or the primary context inside a burst. -/
def paceTick (s : State) : Pace :=
  if quiet s = false then s.pace
  else if s.drain.inService then { s.pace with handler := elapsePace s.pace.handler }
  else if s.prim.todo ≠ [] then { s.pace with primary := elapsePace s.pace.primary }
  else s.pace

/-- Step 1 of `Boundary()`: the counter (R34, R234). With it the model's own clocks: the pulse on `RES_n` (R244), the
wait of the next input and that of an agent's next operation. -/
def countTick (s : State) : State :=
  { s with cyc := s.cyc + 1, resLeft := s.resLeft - 1, inbox := elapse s.inbox, pace := paceTick s, resumed := false }

/-- Steps 1 to 3 of `Boundary()` (R234): the counter, the timer, the sequencer. Steps 4 and 5 are the schedule's. -/
def boundary (s : State) : State := seqTick (timerTick (countTick s))

/-! ## The ring: life cycle, producer side -/

/-- The store's contents become unspecified (R32, U19). -/
def Ring.discard (r : Ring) : Ring :=
  { mem := [], epoch := r.epoch + 1, read := 0, write := 0, size := Config.ringDefaultBytes }

/-- The period a fresh subsystem starts with (R170). -/
def initialRate (s : State) : Ticks :=
  if s.rate.baseRate ≠ 0 then BitVec.ofNat 32 (max s.rate.baseRate.toNat Config.rateMin) else s.par.rateDefault

/-- `AsidInit()` (R170). -/
def asidInit (s : State) : State :=
  { s with
    ring := s.ring.discard
    rate := { s.rate with correctedRate := initialRate s }
    drain := { s.drain with active := true, irqPending := false, irqPeriod := initialRate s, irqCnt := 0,
                            idleCount := 0 } }

/-- Lazy initialisation (R184). -/
def ensureActive (s : State) : State := if s.drain.active then s else asidInit s

/-- `AsidTeardown()` (R171). -/
def asidTeardown (s : State) : State :=
  { s with
    ring := s.ring.discard
    drain := { s.drain with active := false, irqPending := false, idleCount := 0 } }

/-- A push into an initialised ring (R172): stored, or dropped when it would put `ring_write` on `ring_read`. -/
def pushEntry (register value : Byte) (delay : Cycles) (s : State) : State :=
  if s.ring.next s.ring.write = s.ring.read then recordDrop s
  else
    { s with ring := { storeEntry s.ring s.ring.write register value delay with
                       write := s.ring.next s.ring.write } }

/-- The copy loop of `Grow` (R174), ascending from `j`: `n` bytes go from `j` to `(S + j) mod S2`. -/
def relocate (size newSize : Nat) : Nat → Nat → Ring → Ring
  | _, 0, r => r
  | j, n + 1, r => relocate size newSize (j + 1) n (ringStore r ((size + j) % newSize) (ringByte r j))

/-- The new size (R174). -/
def Ring.grownSize (r : Ring) : Nat := min (r.size + Config.ringStepBytes) Config.ringMaxBytes

/-- `Grow` on the ring (R174): a wrapped tail is relocated, then the size is raised. -/
def Ring.grown (r : Ring) : Ring :=
  if r.write < r.read then
    { relocate r.size r.grownSize 0 r.write r with
      write := (r.size + r.write) % r.grownSize, size := r.grownSize }
  else { r with size := r.grownSize }

/-- `Grow()` (R174). -/
def grow (s : State) : State := critical (fun t => { t with ring := t.ring.grown }) s

/-- The shrink is taken (R175, 90_conflicts.md C7). -/
def Ring.mayShrink (r : Ring) : Bool := decide (r.read ≤ r.write) && decide (r.write < Config.ringDefaultBytes)

/-- `ShrinkToDefault()` (R175). -/
def shrinkToDefault (s : State) : State :=
  if Config.ringDefaultBytes < s.ring.size then
    critical
      (fun t => if t.ring.mayShrink then { t with ring := { t.ring with size := Config.ringDefaultBytes } } else t) s
  else s

/-- `NewTune()` (R183). -/
def newTune (s : State) : State :=
  shrinkToDefault
    { s with rate := { s.rate with hist := [],
                                   baseRate := if s.rate.rateExplicit then s.rate.baseRate else 0 } }

/-! ## Rate control -/

/-- The arrival history after one more timestamp: at most eight, the oldest dropped (R203). -/
def pushHistory (hist : List Ticks) (now : Ticks) : List Ticks :=
  if hist.length = Config.histLen then hist.tail ++ [now] else hist ++ [now]

/-- The average of a full history: its span modulo 2^32, divided by its seven intervals; 0 while it is not full
(R203). -/
def historyRate (hist : List Ticks) : Nat :=
  if hist.length < Config.histLen then 0
  else (hist.getLastD 0 - hist.headD 0).toNat / (Config.histLen - 1)

/-- `TrackArrival(now)` (R203): the state, and the calculated rate. -/
def trackArrival (now : Ticks) (s : State) : State × Nat :=
  let hist := pushHistory s.rate.hist now
  let avg := historyRate hist
  let base :=
    if hist.length < Config.histLen then s.rate.baseRate
    else if s.rate.rateExplicit = false ∧ s.rate.baseRate = 0 then BitVec.ofNat 32 avg
    else s.rate.baseRate
  ({ s with rate := { s.rate with hist := hist, baseRate := base } }, avg)

/-- Step 3 of `AdjustRate`: the fill nudge (R208, 90_conflicts.md C5). -/
def nudgeTarget (par : Config.Params) (r : Ring) (target : Nat) : Nat :=
  if Config.fullPct < r.fill * 100 / r.size then target - target / par.nudgeFullDiv
  else if r.fill < Config.lowFillBytes then target + target / par.nudgeLowDiv
  else target

/-- The lower end of the clamp band (R209). -/
def clampLow (base : Nat) : Nat := base / Config.clampLoDiv

/-- The upper end of the clamp band (R209). -/
def clampHigh (base : Nat) : Nat := base * Config.clampHiNum / Config.clampHiDen

/-- Step 4 of `AdjustRate`: the band, then the floor (R209). -/
def clampTarget (base target : Nat) : Nat :=
  max (if base ≠ 0 then min (max target (clampLow base)) (clampHigh base) else target) Config.rateMin

/-- `|a − b|`, the larger minus the smaller (R212). -/
def absDiff (a b : Nat) : Nat := max a b - min a b

/-- Step 5 of `AdjustRate`: hysteresis (R210). -/
def applyTarget (target : Nat) (s : State) : State :=
  if Config.hyst < absDiff target s.rate.correctedRate.toNat then
    { s with rate := { s.rate with correctedRate := BitVec.ofNat 32 target } }
  else s

/-- The target of steps 2 to 4 of `AdjustRate` (R207 to R209). -/
def targetRate (calcRate : Nat) (s : State) : Nat :=
  clampTarget s.rate.baseRate.toNat (nudgeTarget s.par s.ring (calcRate / s.rate.chipsEst))

/-- Steps 2 to 5 of `AdjustRate` (R205). -/
def retarget (calcRate : Nat) (s : State) : State :=
  if calcRate = 0 then s else applyTarget (targetRate calcRate s) s

/-- `Emergency()` (R211). -/
def emergency (s : State) : State :=
  let r := s.rate.correctedRate.toNat
  { s with rate := { s.rate with correctedRate := BitVec.ofNat 32 (max (r - r / Config.emergDiv) Config.rateMin) } }

/-- `AdjustRate(calc)` (R205, R206). -/
def adjustRate (calcRate : Nat) (s : State) : State :=
  if s.ring.headroom < Config.headroomBytes then
    if s.ring.size < Config.ringMaxBytes then retarget calcRate (grow s) else emergency s
  else retarget calcRate s

/-- A message for chip `k >= 1` (R200, R202). -/
def noteChip (k : BitVec 2) (s : State) : State :=
  { s with rate := { s.rate with chipsEst := max s.rate.chipsEst (k.toNat + 1), multiAge := 0 } }

/-- A chip-0 message ages the estimate, which falls to 1 at the timeout (R200, R202). -/
def ageEstimate (s : State) : State :=
  let age := if s.rate.multiAge < Config.multiTimeout then s.rate.multiAge + 1 else s.rate.multiAge
  { s with rate := { s.rate with multiAge := age,
                                 chipsEst := if Config.multiTimeout ≤ age then 1 else s.rate.chipsEst } }

/-- An arrival more than `GAP_TICKS` after the last tracked one (R201). -/
def isGap (s : State) : Bool :=
  s.rate.lastValid && decide (gapTicks s < (s.cyc - s.rate.lastArrival).toNat)

/-- The gap test of `EV_FRAME(0)` and the record of the arrival (R200, R201). -/
def noteArrival (s : State) : State :=
  let s := if isGap s then newTune s else s
  { s with rate := { s.rate with lastArrival := s.cyc, lastValid := true } }

/-- `EV_FRAME(0)` on an active subsystem (R200). -/
def newFrame (s : State) : State :=
  let tracked := trackArrival s.cyc (ageEstimate (noteArrival s))
  adjustRate tracked.2 tracked.1

/-! ## The drain service -/

/-- The end of a service (R176, R236): the idle count, the teardown, `in_service <- 0`. -/
def endService (s : State) : State :=
  let s :=
    if 0 < s.drain.delivered then { s with drain := { s.drain with idleCount := 0 } }
    else
      let s := { s with drain := { s.drain with idleCount := s.drain.idleCount + 1 } }
      if Config.idleLimit < s.drain.idleCount then asidTeardown s else s
  { s with drain := { s.drain with inService := false, left := 0, delivered := 0 }, resumed := true }

/-- The start of a service (R176, R178, R235): with no more than one frame in the ring it ends at once. -/
def startService (s : State) : State :=
  let s := { s with drain := { s.drain with irqPending := false, inService := true, left := 0, delivered := 0 } }
  if Config.frameBytes < s.ring.fill then
    { s with drain := { s.drain with left := Config.frameEntries } }
  else endService s

/-- One turn of the drain loop (R176): the read cursor moves on, then the entry's cycled write is requested. -/
def deliverEntry (register value : Byte) (delay : Cycles) (s : State) : State :=
  present (.cycledWrite register value delay)
    { s with
      ring := { s.ring with read := s.ring.next s.ring.read }
      drain := { s.drain with left := s.drain.left - 1, delivered := s.drain.delivered + 1 } }

/-! ## Reset -/

/-- A pulse on `RES_n` (R157, R244). -/
def pulseResN (s : State) : State := { s with resLeft := s.par.resPulseTicks }

/-- Power-on reset (R260): every state item takes its value of R38. What is no state of the block stays: the
arguments, the inputs still to come, the records. The counter belongs to the clock generator and no agent writes it
(R34, R239; log 13). -/
def powerOnReset (s : State) : State :=
  { State.reset with
    par := s.par
    cyc := s.cyc
    ring := s.ring.discard
    drain := { State.reset.drain with irqPeriod := s.par.rateDefault }
    rate := { State.reset.rate with correctedRate := s.par.rateDefault }
    inbox := s.inbox
    pace := s.pace
    trace := s.trace
    replies := s.replies
    forwarded := s.forwarded
    reads := s.reads }

/-! ## The primary context -/

/-- Present the next operation of the command in progress (R151, R153). -/
def issueNext (s : State) : State :=
  match s.prim.todo with
  | [] => s
  | r :: rest => present r { s with prim := { s.prim with todo := rest } }

/-- Start a burst: its first operation is presented at once (R150, R234 step 5). -/
def startBurst (ops : List BusRequest) (s : State) : State :=
  issueNext { s with prim := { s.prim with todo := ops } }

/-- `reply [result]` (R152). -/
def sendReply (s : State) : State :=
  { s with replies := s.replies ++ [s.result], prim := { s.prim with replyDue := false } }

/-- Hand something to the environment (R104). -/
def forward (f : Forwarded) (s : State) : State := { s with forwarded := s.forwarded ++ [f] }

/-- An instruction of the primary context takes its effect when that context may take a step; offered while it is
held, it stays first among the inputs and is processed later (R178, U5; log 10). -/
def byPrimary (i : Instr) (effect : State → State) (s : State) : Host.Outcome State Fault Refusal :=
  if primaryFree s then .next (effect s) else .next { s with inbox := { wait := 0, item := .held i } :: s.inbox }

/-- A bus operation of a requester (R126, R265): held while a service runs or a command is in progress; refused
while another request is outstanding (U6). -/
def byRequester (i : Instr) (r : BusRequest) (s : State) : Host.Outcome State Fault Refusal :=
  if s.drain.inService || midCommand s then .next { s with inbox := { wait := 0, item := .held i } :: s.inbox }
  else if s.req.valid then .refused .secondRequester
  else .next (present r s)

end Sys2Proof.Machine
end

