-- ==== Sys2Proof/Machine/Asid.lean ====
section
/-! DEFINITION. The meanings of the AEV family (42_asid_ring.md, 43_asid_rate.md): each event is processed whole, in
zero ticks (R234, R274). -/

namespace Sys2Proof.Machine

/-- `EV_PLAY_START` (R181). -/
def execEvPlayStart (s : State) : Host.Outcome State Fault Refusal :=
  byPrimary .evPlayStart newTune s

/-- `EV_PLAY_STOP` (R182): no state of the block changes. -/
def execEvPlayStop (s : State) : Host.Outcome State Fault Refusal :=
  byPrimary .evPlayStop (fun t => t) s

/-- The effect of `EV_SET_BASE_RATE(r)` (R204). -/
def setBaseRate (r : Ticks) (s : State) : State :=
  if r ≠ 0 then { s with rate := { s.rate with baseRate := r, rateExplicit := true } }
  else { s with rate := { s.rate with baseRate := 0, rateExplicit := false } }

/-- `EV_SET_BASE_RATE(r)` (R204). -/
def execEvSetBaseRate (r : Ticks) (s : State) : Host.Outcome State Fault Refusal :=
  byPrimary (.evSetBaseRate r) (setBaseRate r) s

/-- The effect of `EV_FRAME(k)` (R200). -/
def takeFrame (k : BitVec 2) (s : State) : State :=
  if k = 0 then newFrame (ensureActive s) else noteChip k (ensureActive s)

/-- `EV_FRAME(k)` (R200). -/
def execEvFrame (k : BitVec 2) (s : State) : Host.Outcome State Fault Refusal :=
  byPrimary (.evFrame k) (takeFrame k) s

/-- `EV_PUSH(register, value, delay)` (R172). -/
def execEvPush (register value : Byte) (delay : Cycles) (s : State) : Host.Outcome State Fault Refusal :=
  byPrimary (.evPush register value delay) (fun t => pushEntry register value delay (ensureActive t)) s

end Sys2Proof.Machine
end

