-- ==== Sys2Proof/Machine/Bus.lean ====
section
/-! DEFINITION. The meanings of the REQ family (40_bus_operations.md): each presents its operation at the request port;
the sequencer carries it out tick by tick (R127). -/

namespace Sys2Proof.Machine

/-- `BUS_WRITE(address, data)` (R122). -/
def execBusWrite (address data : Byte) (s : State) : Host.Outcome State Fault Refusal :=
  byRequester (.busWrite address data) (.write address data) s

/-- `BUS_CYCLED_WRITE(address, data, cycles)` (R123). -/
def execBusCycledWrite (address data : Byte) (cycles : Cycles) (s : State) : Host.Outcome State Fault Refusal :=
  byRequester (.busCycledWrite address data cycles) (.cycledWrite address data cycles) s

/-- `BUS_CYCLED_READ(address, cycles)` (R124). -/
def execBusCycledRead (address : Byte) (cycles : Cycles) (s : State) : Host.Outcome State Fault Refusal :=
  byRequester (.busCycledRead address cycles) (.cycledRead address cycles) s

/-- `BUS_CYCLED_DELAY(cycles)` (R125). -/
def execBusCycledDelay (cycles : Cycles) (s : State) : Host.Outcome State Fault Refusal :=
  byRequester (.busCycledDelay cycles) (.cycledDelay cycles) s

end Sys2Proof.Machine
end

