-- ==== Sys2Proof/Machine/Command.lean ====
section
/-! DEFINITION. The meanings of the CMD and CFG families (41_command_port.md). -/

namespace Sys2Proof.Machine

/-- `CMD_WRITE` (R151): the pairs the count asks for and the buffer holds, one write after another. -/
def execCmdWrite (n : BitVec 6) (operands : List Byte) (s : State) : Host.Outcome State Fault Refusal :=
  byPrimary (.cmdWrite n operands) (startBurst (writeBurst n operands)) s

/-- `CMD_CYCLED_WRITE` (R153). -/
def execCmdCycledWrite (n : BitVec 6) (operands : List Byte) (s : State) : Host.Outcome State Fault Refusal :=
  byPrimary (.cmdCycledWrite n operands) (startBurst (cycledWriteBurst n operands)) s

/-- The effect of `CMD_READ` (R152): a short buffer is ignored; otherwise a read with no delay, whose byte is the
reply. -/
def startRead (address : Option Byte) (s : State) : State :=
  match address with
  | none => s
  | some a => startBurst [.cycledRead a 0] { s with prim := { s.prim with replyDue := true } }

/-- `CMD_READ` (R152). -/
def execCmdRead (address : Option Byte) (s : State) : Host.Outcome State Fault Refusal :=
  byPrimary (.cmdRead address) (startRead address) s

/-- `CMD_MUTE` (R156): no bus operation. -/
def execCmdMute (s : State) : Host.Outcome State Fault Refusal :=
  byPrimary .cmdMute (fun t => { t with mute := true }) s

/-- `CMD_UNMUTE` (R156). -/
def execCmdUnmute (s : State) : Host.Outcome State Fault Refusal :=
  byPrimary .cmdUnmute (fun t => { t with mute := false }) s

/-- `CMD_RESET_SID` (R157): a pulse on `RES_n`, no register of the block changes. -/
def execCmdResetSid (s : State) : Host.Outcome State Fault Refusal :=
  byPrimary .cmdResetSid pulseResN s

/-- `CMD_RESET_MCU` (R158, R260). -/
def execCmdResetMcu (s : State) : Host.Outcome State Fault Refusal :=
  byPrimary .cmdResetMcu powerOnReset s

/-- `CMD_PAUSE` (R158): no effect on the block, forwarded (R104). -/
def execCmdPause (s : State) : Host.Outcome State Fault Refusal :=
  byPrimary .cmdPause (forward (.subop 0x0A)) s

/-- `CMD_UNPAUSE` (R158). -/
def execCmdUnpause (s : State) : Host.Outcome State Fault Refusal :=
  byPrimary .cmdUnpause (forward (.subop 0x0B)) s

/-- `CMD_DISABLE_SID` (R158). -/
def execCmdDisableSid (s : State) : Host.Outcome State Fault Refusal :=
  byPrimary .cmdDisableSid (forward (.subop 0x0F)) s

/-- `CMD_ENABLE_SID` (R158). -/
def execCmdEnableSid (s : State) : Host.Outcome State Fault Refusal :=
  byPrimary .cmdEnableSid (forward (.subop 0x10)) s

/-- `CMD_CLEAR_BUS` (R158). -/
def execCmdClearBus (s : State) : Host.Outcome State Fault Refusal :=
  byPrimary .cmdClearBus (forward (.subop 0x11)) s

/-- `CMD_BOOTLOADER` (R158). -/
def execCmdBootloader (s : State) : Host.Outcome State Fault Refusal :=
  byPrimary .cmdBootloader (forward (.subop 0x14)) s

/-- The sub-opcode lies in the reserved range 0x0A to 0x14 (R98). -/
def isReservedSubop (sub : BitVec 5) : Bool := decide (0x0A ≤ sub.toNat) && decide (sub.toNat ≤ 0x14)

/-- `CMD_UNASSIGNED` (R159): ignored. A value of the reserved range that no row names (possible only under other
model arguments than the defaults) is forwarded, with no effect on the block (R154). -/
def execCmdUnassigned (sub : BitVec 5) (s : State) : Host.Outcome State Fault Refusal :=
  byPrimary (.cmdUnassigned sub) (fun t => if isReservedSubop sub then forward (.subop sub) t else t) s

/-- The effect of a CONFIG buffer on the block (R155): none; a short one is ignored, any other is handed to the
configuration component. -/
def forwardConfig (sub : List Byte) (s : State) : State :=
  if sub = [] then s else forward (.config sub) s

/-- `CMD_CONFIG` (R155). -/
def execCmdConfig (sub : List Byte) (s : State) : Host.Outcome State Fault Refusal :=
  byPrimary (.cmdConfig sub) (forwardConfig sub) s

/-- `CFG_READ_CONFIG` (R155): config command 0x30. -/
def execCfgReadConfig (operands : List Byte) (s : State) : Host.Outcome State Fault Refusal :=
  byPrimary (.cfgReadConfig operands) (forwardConfig (0x30 :: operands)) s

/-- `CFG_RUN_AUTO_DETECT` (R155): config command 0x5B. -/
def execCfgRunAutoDetect (operands : List Byte) (s : State) : Host.Outcome State Fault Refusal :=
  byPrimary (.cfgRunAutoDetect operands) (forwardConfig (0x5B :: operands)) s

/-- `CFG_PLAYER` (R155): config commands 0xE0 to 0xFF. -/
def execCfgPlayer (control : BitVec 5) (operands : List Byte) (s : State) : Host.Outcome State Fault Refusal :=
  byPrimary (.cfgPlayer control operands) (forwardConfig ((0b111#3 ++ control : Byte) :: operands)) s

end Sys2Proof.Machine
end

