-- ==== Sys2Proof/Machine/Service.lean ====
section
/-! DEFINITION. The meanings of the drain side: the served firing (R176, R178) and the ring entry the service executes
(R101, R176). -/

namespace Sys2Proof.Machine

/-- `EV_TIMER` (R176): the drain service starts when the gate is open; while it is closed the firing stays
pending and nothing happens (R178, R233). -/
def execEvTimer (s : State) : Host.Outcome State Fault Refusal :=
  if gateOpen s then .next (startService s) else .next s

/-- `RING_ENTRY` (R176): the running service takes the entry and requests its cycled write; no entry leaves the
ring otherwise (R26). -/
def execRingEntry (register value : Byte) (delay : Cycles) (s : State) : Host.Outcome State Fault Refusal :=
  if entryReady s then .next (deliverEntry register value delay s) else .next s

end Sys2Proof.Machine
end

