-- ==== Sys2Proof/Machine/Dispatch.lean ====
section
/-! DEFINITION. One arm per instruction. -/

namespace Sys2Proof.Machine

def exec (i : Instr) (s : State) : Host.Outcome State Fault Refusal :=
  match i with
  | .cmdWrite n operands => Sys2Proof.Machine.execCmdWrite n operands s
  | .cmdRead address => Sys2Proof.Machine.execCmdRead address s
  | .cmdCycledWrite n operands => Sys2Proof.Machine.execCmdCycledWrite n operands s
  | .cmdPause => Sys2Proof.Machine.execCmdPause s
  | .cmdUnpause => Sys2Proof.Machine.execCmdUnpause s
  | .cmdMute => Sys2Proof.Machine.execCmdMute s
  | .cmdUnmute => Sys2Proof.Machine.execCmdUnmute s
  | .cmdResetSid => Sys2Proof.Machine.execCmdResetSid s
  | .cmdDisableSid => Sys2Proof.Machine.execCmdDisableSid s
  | .cmdEnableSid => Sys2Proof.Machine.execCmdEnableSid s
  | .cmdClearBus => Sys2Proof.Machine.execCmdClearBus s
  | .cmdConfig sub => Sys2Proof.Machine.execCmdConfig sub s
  | .cmdResetMcu => Sys2Proof.Machine.execCmdResetMcu s
  | .cmdBootloader => Sys2Proof.Machine.execCmdBootloader s
  | .cmdUnassigned sub => Sys2Proof.Machine.execCmdUnassigned sub s
  | .cfgReadConfig operands => Sys2Proof.Machine.execCfgReadConfig operands s
  | .cfgRunAutoDetect operands => Sys2Proof.Machine.execCfgRunAutoDetect operands s
  | .cfgPlayer control operands => Sys2Proof.Machine.execCfgPlayer control operands s
  | .busWrite address data => Sys2Proof.Machine.execBusWrite address data s
  | .busCycledWrite address data cycles => Sys2Proof.Machine.execBusCycledWrite address data cycles s
  | .busCycledRead address cycles => Sys2Proof.Machine.execBusCycledRead address cycles s
  | .busCycledDelay cycles => Sys2Proof.Machine.execBusCycledDelay cycles s
  | .evPlayStart => Sys2Proof.Machine.execEvPlayStart s
  | .evPlayStop => Sys2Proof.Machine.execEvPlayStop s
  | .evSetBaseRate r => Sys2Proof.Machine.execEvSetBaseRate r s
  | .evFrame k => Sys2Proof.Machine.execEvFrame k s
  | .evPush register value delay => Sys2Proof.Machine.execEvPush register value delay s
  | .evTimer => Sys2Proof.Machine.execEvTimer s
  | .ringEntry register value delay => Sys2Proof.Machine.execRingEntry register value delay s

end Sys2Proof.Machine
end

