-- ==== Sys2Proof/Machine/Schedule.lean ====
section
/-! DEFINITION. What the machine does next: the order of R234 after `Boundary()`'s steps 1 to 3, the environment's
actions, and where a word is placed so that it runs next. -/

namespace Sys2Proof.Machine

/-! ## The environment (R11 f) -/

/-- When the environment may act: a routing swap while the sequencer is idle (R71), a clock change while nothing
is outstanding and no service runs (R267), anything else at any time. -/
def EnvAction.permitted (a : EnvAction) (s : State) : Bool :=
  match a with
  | .swap _ => !busy s
  | .setClock _ => quiet s && !s.drain.inService
  | .pulseReset | .enterSwap _ _ | .powerOn => true

/-- The effect of an environment action (R71, R267, R244, R37, R260). The mask is the environment's only around a
routing swap (R70): entering the section puts the swap, which leaves it, first among the inputs. DESIGN CHOICE (log
25): the masked section of a clock change, whose length R267 does not give, takes zero ticks. -/
def EnvAction.apply (a : EnvAction) (s : State) : State :=
  match a with
  | .swap rt => critical (fun t => { t with rt := rt }) s
  | .setClock hz => maskedDuring (fun t => { t with par := { t.par with clkHz := hz } }) s
  | .pulseReset => pulseResN s
  | .enterSwap wait rt => { setMask true s with inbox := { wait := wait, item := .env (.swap rt) } :: s.inbox }
  | .powerOn => powerOnReset s

/-! ## The inputs -/

/-- The next input, when its wait is over, with those after it. -/
def dueItem (s : State) : Option (Item × List Input) :=
  match s.inbox with
  | ⟨0, item⟩ :: rest => some (item, rest)
  | _ => none

/-- The environment action that is due and permitted, with the inputs after it. -/
def dueEnv (s : State) : Option (EnvAction × List Input) :=
  match dueItem s with
  | some (.env a, rest) => if a.permitted s then some (a, rest) else none
  | _ => none

/-- The next operation of an agent need not wait any longer (R126, log 20). -/
def paceDue : List Nat → Bool
  | [] => true
  | n :: _ => decide (n = 0)

/-- The primary context has something to do at this boundary: a command to go on with, or an input that is due. -/
def primaryHasStep (s : State) : Bool :=
  if midCommand s then s.prim.todo.isEmpty || paceDue s.pace.primary
  else
    match dueItem s with
    | some (.code _, _) | some (.held _, _) => true
    | _ => false

/-! ## The next action -/

/-- What the machine does next: run an instruction on a state, or go to a state. -/
inductive Action where
  | run (i : Instr) (s : State)
  | go (s : State)
  deriving DecidableEq, Repr

/-- An instruction at a port, or offered again (R104, R102: a word that stands for none is ignored). -/
def takeItem (item : Item) (s : State) : Action :=
  match item with
  | .code c =>
    match decode s.par c with
    | .ok i => .run i s
    | .error _ => .go s
  | .held i => .run i s
  | .env _ => .go s

/-- The primary context presents the next operation of its command, or lets a boundary pass first. -/
def continueBurst (s : State) : State :=
  if paceDue s.pace.primary then
    issueNext { s with pace := { s.pace with primary := s.pace.primary.tail }, resumed := false }
  else boundary s

/-- The primary context's step (R234 step 5): the next operation of its command, the reply it owes, or the input
that is due; with none of them a tick boundary passes. -/
def primaryStep (s : State) : Action :=
  if s.prim.todo ≠ [] then .go (continueBurst s)
  else if s.prim.replyDue then .go (sendReply { s with resumed := false })
  else
    match dueItem s with
    | some (.code c, rest) => takeItem (.code c) { s with inbox := rest, resumed := false }
    | some (.held i, rest) => takeItem (.held i) { s with inbox := rest, resumed := false }
    | _ => .go (boundary s)

/-- The instruction at the ring read cursor (R22, R63, R101). -/
def fetchEntry (s : State) : Instr := decodeEntry (entryWord s.ring s.ring.read)

/-- The handler's step (R176): the next entry, or a boundary before it, or the end of the service. -/
def handlerStep (s : State) : Action :=
  if entryReady s then
    if paceDue s.pace.handler then
      .run (fetchEntry s) { s with pace := { s.pace with handler := s.pace.handler.tail } }
    else .go (boundary s)
  else .go (endService s)

/-- The order of R234 at one boundary: the gate (step 4), but for the step a service that has just ended leaves to
the primary context (R275; log 7); then the environment; then, while an operation is outstanding, the next
boundary; then the handler or the primary context (step 5). DESIGN CHOICE (log 22): a requester is held until its
operation completes, that of `BUS_WRITE` too, which R126 allows to be released at acceptance; so an input that is due
while an operation is outstanding waits among the inputs, and an open gate goes before it. -/
def schedule (s : State) : Action :=
  if gateOpen s && !(s.resumed && primaryHasStep s) then .run .evTimer s
  else
    match dueEnv s with
    | some (a, rest) => .go (a.apply { s with inbox := rest })
    | none =>
      if quiet s = false then .go (boundary s)
      else if s.drain.inService then handlerStep s
      else primaryStep s

/-! ## Placing a word where it runs next -/

/-- Nothing outstanding, no service, no command in progress, no firing pending: the primary context takes the next
input at once. -/
def settle (s : State) : State :=
  if primaryFree s && !gateOpen s then s
  else
    { s with
      req := { s.req with valid := false }
      seq := { s.seq with phase := .idle }
      pins := Pins.idle
      drain := { s.drain with inService := false, irqPending := false, left := 0, delivered := 0 }
      prim := { todo := [], replyDue := false } }

/-- A word at a port: the next input. -/
def placeInput (c : Code) (s : State) : State :=
  { settle s with inbox := { wait := 0, item := .code c } :: s.inbox }

/-- A firing that the open gate serves next. -/
def placeFiring (s : State) : State :=
  let s := settle s
  { s with drain := { s.drain with active := true, irqPending := true, irqMask := false }, resumed := false }

/-- An entry at the ring read cursor of a running service. -/
def placeEntry (w : BitVec 32) (s : State) : State :=
  let t := settle s
  let ring := storeEntry t.ring t.ring.read (w.extractLsb' 24 8) (w.extractLsb' 16 8) (w.extractLsb' 0 16)
  { t with
    ring := { ring with write := if ring.write = ring.read then ring.next ring.read else ring.write }
    drain := { t.drain with active := true, inService := true, left := Config.frameEntries, delivered := 0 }
    pace := if paceDue t.pace.handler then t.pace else { t.pace with handler := [] }
    inbox := if (dueItem t).isSome then [] else t.inbox }

/-- A word placed where the machine takes its next instruction from. -/
def placeCode (c : Code) (s : State) : State :=
  match c with
  | .cmd _ | .req _ | .aev _ => placeInput c s
  | .timer => placeFiring s
  | .ent w => placeEntry w s

end Sys2Proof.Machine
end

