-- ==== Sys2Proof/Machine/Step.lean ====
section
/-! DEFINITION. One step of the machine, and a word placed so that the next step runs it. -/

namespace Sys2Proof.Machine

/-- One step: the next thing that happens in the order of R234, an instruction being run by `exec`. -/
def step (s : State) : Host.Outcome State Fault Refusal :=
  match schedule s with
  | .run i t => exec i t
  | .go t => .next t

/-- The state with a table word where the next step takes its instruction from (log 12). -/
def State.withFetchWord (s : State) (nbits w : Nat) : State :=
  placeCode (codeOfTableWord nbits w) s

end Sys2Proof.Machine
end

