-- ==== Sys2Proof/Machine/Transaction.lean ====
section
/-! DEFINITION. The four bus operations as transactions (the pseudocode of R122 to R125, the ticks of R134), beside
the tick-level machine the step uses; R131 says the two agree. -/

namespace Sys2Proof.Machine

/-- `n` tick boundaries, with no agent's step between them. -/
def ticks : Nat → State → State
  | 0, s => s
  | n + 1, s => ticks n (boundary s)

/-- One tick of the counter and the sequencer alone. -/
def seqStep (s : State) : State := seqTick { s with cyc := s.cyc + 1 }

/-- `n` ticks of the counter and the sequencer alone. -/
def seqRun : Nat → State → State
  | 0, s => s
  | n + 1, s => seqRun n (seqStep s)

/-- The effective delay (R134): 0 for `BUS_WRITE`, the operand for the other three. -/
def requestDelay : BusRequest → Cycles
  | .write _ _ => 0
  | .cycledWrite _ _ n | .cycledRead _ n | .cycledDelay n => n

/-- Ticks from acceptance to completion (R134). -/
def completionTicks (r : BusRequest) (s : State) : Nat :=
  match r with
  | .cycledDelay n => n.toNat
  | .write address _ | .cycledWrite address _ _ | .cycledRead address _ =>
    match resolve s.rt address with
    | .skip _ => 0
    | .active _ _ _ => (requestDelay r).toNat + s.par.tXfer

/-- A write with delay `n`, accepted at the tick `s.cyc` (R122, R123). -/
def transactWrite (address data : Byte) (n : Cycles) (s : State) : State :=
  match resolve s.rt address with
  | .skip _ => { s with resultValid := false }
  | .active cs a sidx =>
    { s with
      resultValid := false
      shadow := shadowStore s.shadow sidx data
      trace := s.trace ++ [.write (s.cyc + BitVec.ofNat 32 n.toNat) cs a (muteFilter s.mute sidx data)]
      cyc := s.cyc + BitVec.ofNat 32 (n.toNat + s.par.tXfer) }

/-- A read with delay `n`, accepted at the tick `s.cyc` (R124). -/
def transactRead (address : Byte) (n : Cycles) (s : State) : State :=
  match resolve s.rt address with
  | .skip _ => { s with result := 0, resultValid := true }
  | .active cs a sidx =>
    let t := s.cyc + BitVec.ofNat 32 n.toNat
    let v := Config.busRead s.reads t cs a
    { s with
      result := v
      resultValid := true
      shadow := shadowStore s.shadow sidx v
      trace := s.trace ++ [.read t cs a v]
      reads := s.reads + 1
      cyc := s.cyc + BitVec.ofNat 32 (n.toNat + s.par.tXfer) }

/-- The state at the completion of an operation accepted in `s` (R122 to R125); the request registers and the
latches, which those rules do not speak of, as in `s`. -/
def transact (r : BusRequest) (s : State) : State :=
  match r with
  | .write address data => transactWrite address data 0 s
  | .cycledWrite address data n => transactWrite address data n s
  | .cycledRead address n => transactRead address n s
  | .cycledDelay n => { s with resultValid := false, cyc := s.cyc + BitVec.ofNat 32 n.toNat }

end Sys2Proof.Machine
end

