-- ==== Sys2Proof/Safety.lean ====
section
/-! DEFINITION. What counts as a safe state: the invariants of 10_state.md R39, the legal values of R22, R24, R25 and
R27, and the canonical forms of the memories. -/

namespace Sys2Proof.Machine

/-- The eight sizes of R39 item 1. -/
def legalSizes : List Nat := [2240, 4480, 6720, 8960, 11200, 13440, 15680, 16800]

/-- R39 items 1 and 2, and the canonical form of the store. -/
structure RingInv (r : Ring) : Prop where
  size_legal : r.size ∈ legalSizes
  read_aligned : r.read % Config.entryBytes = 0
  write_aligned : r.write % Config.entryBytes = 0
  read_lt : r.read < r.size
  write_lt : r.write < r.size
  mem_wf : ringMemWf r.mem = true

/-- R39 item 4 and R128: the pins follow the phase. The counters are not spent while their phase lasts (R129,
R133). A request waits only while the sequencer is busy (R126). -/
structure SeqInv (s : State) : Prop where
  idle_pins : s.seq.phase = .idle → s.pins = Pins.idle
  delay_pins : s.seq.phase = .delay → s.pins = Pins.idle
  xfer_pins : s.seq.phase = .xfer → s.pins = Pins.ofSeq s.seq
  delay_pending : s.seq.phase = .delay → s.seq.dly ≠ 0
  xfer_pending : s.seq.phase = .xfer → 1 ≤ s.seq.xcnt ∧ s.seq.xcnt ≤ s.par.tXfer
  waits_busy : s.req.valid = true → s.seq.phase ≠ .idle

/-- R39 item 5, R27 and R28. -/
structure RateInv (q : Rate) : Prop where
  chips_pos : 1 ≤ q.chipsEst
  chips_le : q.chipsEst ≤ Config.maxChips
  age_le : q.multiAge ≤ Config.multiTimeout
  hist_le : q.hist.length ≤ Config.histLen

/-- R39 items 5 and 6, R25's legal values; a service runs only on an active subsystem (R178), and takes at most one
frame of entries (R176). -/
structure DrainInv (s : State) : Prop where
  idle_le : s.drain.idleCount ≤ Config.idleLimit + 1
  inactive_quiet : s.drain.active = false → s.drain.irqPending = false
  service_active : s.drain.inService = true → s.drain.active = true
  rate_pos : s.drain.active = true → Config.rateMin ≤ s.rate.correctedRate.toNat
  count_lt : s.drain.active = true → s.drain.irqCnt.toNat < s.drain.irqPeriod.toNat
  left_le : s.drain.left + s.drain.delivered ≤ Config.frameEntries
  no_service : s.drain.inService = false → s.drain.left = 0 ∧ s.drain.delivered = 0

/-- The invariant of the machine. -/
structure Inv (s : State) : Prop where
  par_ok : s.par.ok = true
  shadow_wf : shadowWf s.shadow = true
  ring : RingInv s.ring
  seq : SeqInv s
  rate : RateInv s.rate
  drain : DrainInv s

/-- While the interrupt is masked the environment is inside the section of a routing swap, which is its next input
(R37, R70). -/
def MaskInv (s : State) : Prop :=
  s.drain.irqMask = true → ∃ wait rt rest, s.inbox = { wait := wait, item := .env (.swap rt) } :: rest

/-- The entries stored in the ring, oldest first, as offsets from `ring_read` (R69, R180): the `k`-th entry. -/
def entryAt (r : Ring) (k : Nat) : BitVec 32 := entryWord r ((r.read + Config.entryBytes * k) % r.size)

/-- The queue of entries, oldest first (R180). -/
def queue (r : Ring) : List (BitVec 32) := (List.range (r.fill / Config.entryBytes)).map (entryAt r)

/-! ## Terms of the claims -/

/-- The pin word of a write of `d` (R100). -/
def writePins (cs : BitVec 2) (a : BitVec 6) (d : Byte) : Pins :=
  { a := a, d := some d, dOe := true, rw := false, cs1n := !cs.getLsbD 0, cs2n := !cs.getLsbD 1 }

/-- The pin word of a read (R100). -/
def readPins (cs : BitVec 2) (a : BitVec 6) : Pins :=
  { a := a, d := none, dOe := false, rw := true, cs1n := !cs.getLsbD 0, cs2n := !cs.getLsbD 1 }

/-- From the accepted state `t` on (R128, R134): `n` ticks of delay with idle pins, `x` ticks of transfer with the
pin word `word`, then idle. -/
def Timeline (t : State) (n x : Nat) (word : Pins) : Prop :=
  (∀ k, k < n → (ticks k t).seq.phase = .delay ∧ (ticks k t).pins = Pins.idle) ∧
    (∀ k, n ≤ k → k < n + x → (ticks k t).seq.phase = .xfer ∧ (ticks k t).pins = word) ∧
      (ticks (n + x) t).seq.phase = .idle ∧ (ticks (n + x) t).pins = Pins.idle

/-- The byte a write sends to the chips (R121). -/
def sentByte (mute : Bool) (sidx : BitVec 7) (data : Byte) : Byte :=
  if mute = true ∧ sidx.toNat % 32 = 0x18 then data &&& 0xF0 else data

/-- `t` is the power-on reset of `s`: every item to which the table of R38 gives a value has it, and the arguments and
the trace are those of `s`. -/
structure ResetOf (t s : State) : Prop where
  request : t.req.valid = false
  result : t.resultValid = false
  phase : t.seq.phase = .idle
  mute : t.mute = false
  routing : ∀ slot : BitVec 2, (t.rt.slot slot).cs = 0b00 ∧ (t.rt.slot slot).amask = 0x1F
  shadow : ∀ i : BitVec 7, shadowByte t.shadow i = 0x00
  flags : t.drain.active = false ∧ t.drain.irqPending = false ∧ t.drain.irqMask = false ∧ t.drain.inService = false
  ring : t.ring.read = 0 ∧ t.ring.write = 0 ∧ t.ring.size = 2240
  rates : t.rate.correctedRate = s.par.rateDefault ∧ t.drain.irqPeriod = s.par.rateDefault ∧ t.drain.irqCnt = 0
  baseline : t.rate.baseRate = 0 ∧ t.rate.rateExplicit = false
  arrivals : histCount t = 0 ∧ t.rate.lastValid = false
  chips : t.rate.chipsEst = 1 ∧ t.rate.multiAge = 30
  counters : t.drain.idleCount = 0 ∧ t.ovf = false ∧ t.ovfCount = 0
  pins : t.pins = Pins.idle ∧ resN t = true
  arguments : t.par = s.par
  trace : t.trace = s.trace

/-- The states agree outside the request registers, the latches and `result_valid`: what a skipped operation or a
delay may touch. -/
def SameOutsideSequencer (t s : State) : Prop :=
  { t with req := s.req, seq := s.seq, resultValid := s.resultValid } = s

/-- The state with the environment's inputs out of the picture, the drain torn down, no pulse running, and no pauses
between the operations of a burst: only the primary context and the sequencer move. -/
def OnlyPrimary (s : State) : Prop :=
  s.drain.active = false ∧ s.inbox = [] ∧ s.pace.primary = [] ∧ s.resLeft = 0 ∧ s.resumed = false

/-- The cycled write an entry's 32-bit view stands for (R101, R176). -/
def entryRequest (w : BitVec 32) : BusRequest :=
  .cycledWrite (w.extractLsb' 24 8) (w.extractLsb' 16 8) (w.extractLsb' 0 16)

end Sys2Proof.Machine
end

