-- ==== Sys2Proof/Certificates/Slice0/Obligations.lean ====
section
/-! DEFINITION. The statements for the provers, each a Prop; OBLIGATIONS.json lists them with the rules they rest
on. -/

open Sys2Proof Sys2Proof.Machine

/-! ## Reset -/

/-- The reset values that the table of 10_state.md R38 states. -/
def Obligations.ResetLeavesIdleBlock : Prop :=
  let s := State.reset
  s.req.valid = false ∧ s.resultValid = false ∧ s.seq.phase = .idle ∧ s.mute = false ∧
    (∀ slot : BitVec 2, (s.rt.slot slot).cs = 0b00 ∧ (s.rt.slot slot).amask = 0x1F) ∧
    (∀ i : BitVec 7, shadowByte s.shadow i = 0x00) ∧ s.drain.active = false ∧ s.drain.irqPending = false ∧
    s.drain.irqMask = false ∧ s.drain.inService = false ∧ s.ring.read = 0 ∧ s.ring.write = 0 ∧ s.ring.size = 2240 ∧
    s.rate.correctedRate = s.par.rateDefault ∧ s.drain.irqPeriod = s.par.rateDefault ∧ s.drain.irqCnt = 0 ∧
    s.rate.baseRate = 0 ∧ s.rate.rateExplicit = false ∧ histCount s = 0 ∧ s.rate.lastValid = false ∧
    s.rate.chipsEst = 1 ∧ s.rate.multiAge = 30 ∧ s.drain.idleCount = 0 ∧ s.ovf = false ∧ s.ovfCount = 0 ∧
    s.pins = Pins.idle ∧ resN s = true

/-! ## The sequencer -/

/-- `Resolve` (R61): the slot is bits 6 and 5 of the address, bit 7 is ignored, an inactive slot is tested before a
malformed one, and the two legal masks give the address lines R61 names. -/
def Obligations.ResolveFollowsRoutingTable : Prop :=
  ∀ (rt : RouteTable) (address : Byte),
    (windowIndex address).toNat = address.toNat % 128 ∧
    (slotOf (windowIndex address)).toNat = address.toNat % 128 / 32 ∧
    let a7 := windowIndex address
    let route := rt.slot (slotOf a7)
    (route.cs = 0b00 → resolve rt address = .skip .slotInactive) ∧
      (route.cs ≠ 0b00 → route.amask ≠ 0x1F → route.amask ≠ 0x3F → resolve rt address = .skip .slotMalformed) ∧
      (route.cs ≠ 0b00 → route.amask = 0x1F → resolve rt address = .active route.cs (0#1 ++ offsetOf a7) a7) ∧
      (route.cs ≠ 0b00 → route.amask = 0x3F → resolve rt address = .active route.cs (a7.extractLsb' 0 6) a7)

/-- `BUS_WRITE` (R122): its encoding; it answers; a skip leaves everything outside the sequencer and completes at
once; an active write stores the unfiltered byte in `shadow`, sends the filtered one (R121) at the acceptance tick,
holds the pins for `T_XFER` ticks and completes; the frame is everything else. -/
def Obligations.BusWriteCompletes : Prop :=
  (∀ (p : Config.Params) (w : ReqWord), w.op = 0b00 → decode p (.req w) = .ok (.busWrite w.addr w.data)) ∧
  ∀ (s : State) (address data : Byte), Inv s → primaryFree s = true →
    ∃ t, exec (.busWrite address data) s = .next t ∧ t.resultValid = false ∧
      match resolve s.rt address with
      | .skip _ => t.seq.phase = .idle ∧ SameOutsideSequencer t s
      | .active cs a sidx =>
        SameOutsideSequencer { t with shadow := s.shadow, trace := s.trace, pins := s.pins } s ∧
          (∀ j, shadowByte t.shadow j = if j = sidx then data else shadowByte s.shadow j) ∧
          t.trace = s.trace ++ [.write s.cyc cs a (sentByte s.mute sidx data)] ∧
          Timeline t 0 s.par.tXfer (writePins cs a (sentByte s.mute sidx data)) ∧
          (ticks s.par.tXfer t).cyc = s.cyc + BitVec.ofNat 32 s.par.tXfer ∧
          ∀ k, k ≤ s.par.tXfer → (ticks k t).trace = t.trace ∧ (ticks k t).shadow = t.shadow

/-- `BUS_CYCLED_WRITE` (R123): its encoding; as a write, the transfer held off by exactly `cycles` ticks;
the shadow takes the unfiltered byte at acceptance, the chips get the filtered one (R121); a skip waits nothing. -/
def Obligations.BusCycledWriteCompletes : Prop :=
  (∀ (p : Config.Params) (w : ReqWord), w.op = 0b01 →
    decode p (.req w) = .ok (.busCycledWrite w.addr w.data w.cycles)) ∧
  ∀ (s : State) (address data : Byte) (cycles : Cycles), Inv s → primaryFree s = true →
    ∃ t, exec (.busCycledWrite address data cycles) s = .next t ∧ t.resultValid = false ∧
      match resolve s.rt address with
      | .skip _ => t.seq.phase = .idle ∧ SameOutsideSequencer t s
      | .active cs a sidx =>
        SameOutsideSequencer { t with shadow := s.shadow, trace := s.trace, pins := s.pins } s ∧
          (∀ j, shadowByte t.shadow j = if j = sidx then data else shadowByte s.shadow j) ∧
          Timeline t cycles.toNat s.par.tXfer (writePins cs a (sentByte s.mute sidx data)) ∧
          ∀ k, k ≤ cycles.toNat + s.par.tXfer →
            (ticks k t).shadow = t.shadow ∧
              (ticks k t).trace =
                if k < cycles.toNat then s.trace
                else s.trace ++ [.write (s.cyc + BitVec.ofNat 32 cycles.toNat) cs a (sentByte s.mute sidx data)]

/-- `BUS_CYCLED_READ` (R124): its encoding; a skipped read returns 0 at once; an active one waits, asserts the read
direction, and at its end returns the byte the chips answer (a free value), which `shadow` takes unfiltered. -/
def Obligations.BusCycledReadCompletes : Prop :=
  (∀ (p : Config.Params) (w : ReqWord), w.op = 0b10 → decode p (.req w) = .ok (.busCycledRead w.addr w.cycles)) ∧
  ∀ (s : State) (address : Byte) (cycles : Cycles), Inv s → primaryFree s = true →
    ∃ t, exec (.busCycledRead address cycles) s = .next t ∧
      match resolve s.rt address with
      | .skip _ =>
        t.result = 0 ∧ t.resultValid = true ∧ t.seq.phase = .idle ∧ SameOutsideSequencer { t with result := s.result } s
      | .active cs a sidx =>
        SameOutsideSequencer { t with pins := s.pins } s ∧
          Timeline t cycles.toNat s.par.tXfer (readPins cs a) ∧
          (∀ k, k < cycles.toNat + s.par.tXfer →
            (ticks k t).resultValid = false ∧ (ticks k t).result = s.result ∧ (ticks k t).trace = s.trace ∧
              (ticks k t).shadow = s.shadow) ∧
          let u := ticks (cycles.toNat + s.par.tXfer) t
          let v := Config.busRead s.reads (s.cyc + BitVec.ofNat 32 cycles.toNat) cs a
          u.result = v ∧ u.resultValid = true ∧
            u.trace = s.trace ++ [.read (s.cyc + BitVec.ofNat 32 cycles.toNat) cs a v] ∧
            ∀ j, shadowByte u.shadow j = if j = sidx then v else shadowByte s.shadow j

/-- `BUS_CYCLED_DELAY` (R125): its encoding; exactly `cycles` ticks with idle pins, no transfer, nothing written. -/
def Obligations.BusCycledDelayCompletes : Prop :=
  (∀ (p : Config.Params) (w : ReqWord), w.op = 0b11 → decode p (.req w) = .ok (.busCycledDelay w.cycles)) ∧
  ∀ (s : State) (cycles : Cycles), Inv s → primaryFree s = true →
    ∃ t, exec (.busCycledDelay cycles) s = .next t ∧ t.resultValid = false ∧ SameOutsideSequencer t s ∧
      Timeline t cycles.toNat 0 Pins.idle ∧
      ∀ k, k ≤ cycles.toNat →
        (ticks k t).trace = s.trace ∧ (ticks k t).shadow = s.shadow ∧ (ticks k t).result = s.result ∧
          (ticks k t).rt = s.rt ∧ (ticks k t).mute = s.mute

/-- The tick-level machine produces exactly the transaction (the agreement 40_bus_operations.md section 3 asks a
model to prove): the same state but for request registers and latches, at the stated completion tick, and not
idle before it. -/
def Obligations.TicksAgreeWithTransaction : Prop :=
  ∀ (s : State) (r : BusRequest), 1 ≤ s.par.tXfer → s.seq.phase = .idle → s.req.valid = false → s.pins = Pins.idle →
    let t := present r s
    let u := seqRun (completionTicks r s) t
    u.seq.phase = .idle ∧ { u with seq := s.seq, req := s.req } = transact r s ∧
      ∀ k, k < completionTicks r s → (seqRun k t).seq.phase ≠ .idle

/-- Routing and mute are sampled at acceptance: a tick of an operation in flight neither reads nor writes them
(40_bus_operations.md sections 1 and 3). -/
def Obligations.FlightIgnoresRoutingAndMute : Prop :=
  ∀ (s : State) (rt : RouteTable) (mute : Bool), busy s = true → s.req.valid = false →
    boundary { s with rt := rt, mute := mute } = { boundary s with rt := rt, mute := mute }

/-- A request presented while the sequencer is busy is not lost and not refused: it waits, nothing else changing,
and is accepted at the boundary at which the sequencer is next idle (40_bus_operations.md section 3). -/
def Obligations.RequestWaitsWhileBusy : Prop :=
  (∀ s : State, s.drain.inService = false → midCommand s = false → s.req.valid = false → busy s = true →
    (∀ address data, ∃ t, exec (.busWrite address data) s = .next t ∧ { t with req := s.req } = s ∧
      t.req.valid = true ∧ t.req.op = .write ∧ t.req.addr = address ∧ t.req.data = data) ∧
    (∀ address data cycles, ∃ t, exec (.busCycledWrite address data cycles) s = .next t ∧ { t with req := s.req } = s ∧
      t.req = ⟨true, .cycledWrite, address, data, cycles⟩) ∧
    (∀ address cycles, ∃ t, exec (.busCycledRead address cycles) s = .next t ∧ { t with req := s.req } = s ∧
      t.req.valid = true ∧ t.req.op = .cycledRead ∧ t.req.addr = address ∧ t.req.cycles = cycles) ∧
    (∀ cycles, ∃ t, exec (.busCycledDelay cycles) s = .next t ∧ { t with req := s.req } = s ∧
      t.req.valid = true ∧ t.req.op = .cycledDelay ∧ t.req.cycles = cycles)) ∧
  ∀ s : State, s.req.valid = true →
    seqTick s = (if (advanceSeq s).seq.phase = .idle then accept (advanceSeq s) else advanceSeq s) ∧
      (seqTick s).req = { s.req with valid := decide ((advanceSeq s).seq.phase ≠ .idle) }

/-- A second request while one is outstanding is refused by name (93_implementation_defined.md U6; log 11). -/
def Obligations.SecondRequestRefused : Prop :=
  ∀ s : State, s.drain.inService = false → midCommand s = false → s.req.valid = true →
    (∀ address data, exec (.busWrite address data) s = .refused .secondRequester) ∧
    (∀ address data cycles, exec (.busCycledWrite address data cycles) s = .refused .secondRequester) ∧
    (∀ address cycles, exec (.busCycledRead address cycles) s = .refused .secondRequester) ∧
    ∀ cycles, exec (.busCycledDelay cycles) s = .refused .secondRequester

/-- An instruction offered while the primary context is held changes nothing and stays first among the inputs
(93_implementation_defined.md U5; the model's form of it is log 10). -/
def Obligations.HeldInputIsKept : Prop :=
  ∀ (i : Instr) (s : State),
    ((i.format = .cmd ∨ i.format = .aev) ∧ primaryFree s = false) ∨
        (i.format = .req ∧ (s.drain.inService = true ∨ midCommand s = true)) →
      exec i s = .next { s with inbox := { wait := 0, item := .held i } :: s.inbox }

/-! ## The command port -/

/-- The count field and the groups of a burst (R92, R93, R94): byte 0, how many operations, and which bytes each takes;
a group that is not wholly present is not taken. -/
def Obligations.BurstGroupsFollowCount : Prop :=
  ∀ (p : Config.Params) (n : BitVec 6) (operands : List Byte),
    decode p (.cmd ((0b00#2 ++ n) :: operands)) = .ok (.cmdWrite n operands) ∧
    decode p (.cmd ((0b10#2 ++ n) :: operands)) = .ok (.cmdCycledWrite n operands) ∧
    let pairs := if n = 0 then 1 else n.toNat / 2
    let quads := if n = 0 then 1 else n.toNat / 4
    (writeBurst n operands).length = min pairs (operands.length / 2) ∧
    (∀ i a d, i < pairs → operands[2 * i]? = some a → operands[2 * i + 1]? = some d →
      (writeBurst n operands)[i]? = some (.write a d)) ∧
    (cycledWriteBurst n operands).length = min quads (operands.length / 4) ∧
    ∀ i a d hi lo, i < quads → operands[4 * i]? = some a → operands[4 * i + 1]? = some d →
      operands[4 * i + 2]? = some hi → operands[4 * i + 3]? = some lo →
      ∃ cycles : Cycles, cycles.toNat = hi.toNat * 256 + lo.toNat ∧
        (cycledWriteBurst n operands)[i]? = some (.cycledWrite a d cycles)

/-- A write or cycled-write burst answers with its first operation presented and the rest to follow; an empty one
changes nothing (41_command_port.md, the command port's bursts). -/
def Obligations.BurstStartsWithFirstGroup : Prop :=
  ∀ (s : State) (n : BitVec 6) (operands : List Byte), primaryFree s = true →
    exec (.cmdWrite n operands) s =
        .next (match writeBurst n operands with
          | [] => s
          | r :: rest => present r { s with prim := { s.prim with todo := rest } }) ∧
      exec (.cmdCycledWrite n operands) s =
        .next (match cycledWriteBurst n operands with
          | [] => s
          | r :: rest => present r { s with prim := { s.prim with todo := rest } })

/-- A whole burst, run to its end with the drain torn down and no pauses between its operations (log 20), is the
sequence of its operations' transactions, each begun at the completion of the one before (41_command_port.md). -/
def Obligations.BurstIsSequenceOfTransactions : Prop :=
  ∀ (s : State) (n : BitVec 6) (operands : List Byte), Inv s → primaryFree s = true → OnlyPrimary s →
    (∃ t k u, exec (.cmdWrite n operands) s = .next t ∧ Sys2Proof.core.run k t = .next u ∧ primaryFree u = true ∧
      { u with seq := s.seq, req := s.req } = (writeBurst n operands).foldl (fun v r => transact r v) s) ∧
    ∃ t k u, exec (.cmdCycledWrite n operands) s = .next t ∧ Sys2Proof.core.run k t = .next u ∧
      primaryFree u = true ∧
      { u with seq := s.seq, req := s.req } = (cycledWriteBurst n operands).foldl (fun v r => transact r v) s

/-- `CMD_READ`, run to its end with the drain torn down: a read with no delay, then its byte as the reply; a short
buffer does nothing (41_command_port.md, the read command). -/
def Obligations.ReadCommandReplies : Prop :=
  ∀ (s : State) (address : Byte), Inv s → primaryFree s = true →
    exec (.cmdRead none) s = .next s ∧
      (OnlyPrimary s →
        ∃ t k u, exec (.cmdRead (some address)) s = .next t ∧ Sys2Proof.core.run k t = .next u ∧
          primaryFree u = true ∧
          { u with seq := s.seq, req := s.req } =
            { transact (.cycledRead address 0) s with
              replies := s.replies ++ [(transact (.cycledRead address 0) s).result] })

/-- `CMD_READ` answers in every state in which the primary context may take it, the drain running or not: the read
is presented and the reply is owed. -/
def Obligations.ReadCommandPresentsRead : Prop :=
  ∀ (s : State) (address : Byte), primaryFree s = true →
    exec (.cmdRead (some address)) s =
      .next (present (.cycledRead address 0) { s with prim := { todo := [], replyDue := true } })

/-- `CMD_MUTE` and `CMD_UNMUTE` (R156): the encoding, under arguments that keep the sub-opcodes apart and its defaults;
the flag and nothing else. -/
def Obligations.MuteCommandsSetFlag : Prop :=
  (∀ (p : Config.Params) (b : Byte) (rest : List Byte), b.extractLsb' 6 2 = 0b11 →
    (b.extractLsb' 0 5 = p.subopMute → p.subopMute ≠ 0x12 → decode p (.cmd (b :: rest)) = .ok .cmdMute) ∧
      (b.extractLsb' 0 5 = p.subopUnmute → p.subopUnmute ≠ 0x12 → p.subopUnmute ≠ p.subopMute →
        decode p (.cmd (b :: rest)) = .ok .cmdUnmute)) ∧
  Config.Params.default.subopMute = 0x0C ∧ Config.Params.default.subopUnmute = 0x0D ∧
  ∀ s : State, primaryFree s = true →
    (∃ t, exec .cmdMute s = .next t ∧ t.mute = true ∧ { t with mute := s.mute } = s) ∧
      ∃ t, exec .cmdUnmute s = .next t ∧ t.mute = false ∧ { t with mute := s.mute } = s

/-- `CMD_RESET_SID` (41_command_port.md, 60_exceptions.md section 6): the encoding; `RES_n` is at 0 for exactly
`RES_PULSE_TICKS` ticks, whatever their number; no register of the block changes. That the count starts anew where a
pulse is already running, and that a length of 0 is no pulse, is the model's choice (log 9). -/
def Obligations.ResetSidPulsesLine : Prop :=
  (∀ (p : Config.Params) (b : Byte) (rest : List Byte), b.extractLsb' 6 2 = 0b11 →
    b.extractLsb' 0 5 = p.subopResetSid → p.subopResetSid ≠ 0x12 → p.subopResetSid ≠ p.subopMute →
      p.subopResetSid ≠ p.subopUnmute → decode p (.cmd (b :: rest)) = .ok .cmdResetSid) ∧
  Config.Params.default.subopResetSid = 0x0E ∧
  ∀ s : State, primaryFree s = true →
    ∃ t, exec .cmdResetSid s = .next t ∧ { t with resLeft := s.resLeft } = s ∧
      ∀ k, resN (ticks k t) = decide (s.par.resPulseTicks ≤ k)

/-- Power-on reset (70_reset_and_hazards.md section 1): `CMD_RESET_MCU` from any state in which the command is taken,
and the environment's from any state, an operation in flight, a service and a command in progress being lost: every
item with a stated reset value takes it. The tick counter, the records and the inputs are the model's choice (log 13),
and that an open gate is served before the environment acts (log 20). -/
def Obligations.ResetMcuIsPowerOnReset : Prop :=
  (∀ s : State, primaryFree s = true → ∃ t, exec .cmdResetMcu s = .next t ∧ ResetOf t s) ∧
    ∀ (s : State) (rest : List Input), gateOpen s = false →
      s.inbox = { wait := 0, item := .env .powerOn } :: rest →
        ∃ t, step s = .next t ∧ ResetOf t s ∧ t.prim = { todo := [], replyDue := false } ∧ t.inbox = rest

/-- The reserved sub-opcodes with no effect, the configuration commands and the unassigned sub-opcodes leave the
block as it is; what is not ignored is handed to the environment (R158's six, 41_command_port.md). That of a reserved
sub-opcode the five bits alone are handed over, and of a CONFIG buffer all from byte 1 on, is the model's choice (log
21), and that a nameless value of the reserved range is forwarded, its reading (log 17). -/
def Obligations.ForwardedCommandsLeaveBlock : Prop :=
  ∀ s : State, primaryFree s = true →
    exec .cmdPause s = .next { s with forwarded := s.forwarded ++ [.subop 0x0A] } ∧
    exec .cmdUnpause s = .next { s with forwarded := s.forwarded ++ [.subop 0x0B] } ∧
    exec .cmdDisableSid s = .next { s with forwarded := s.forwarded ++ [.subop 0x0F] } ∧
    exec .cmdEnableSid s = .next { s with forwarded := s.forwarded ++ [.subop 0x10] } ∧
    exec .cmdClearBus s = .next { s with forwarded := s.forwarded ++ [.subop 0x11] } ∧
    exec .cmdBootloader s = .next { s with forwarded := s.forwarded ++ [.subop 0x14] } ∧
    (∀ sub, exec (.cmdUnassigned sub) s =
      .next (if 0x0A ≤ sub.toNat ∧ sub.toNat ≤ 0x14 then { s with forwarded := s.forwarded ++ [.subop sub] } else s)) ∧
    exec (.cmdConfig []) s = .next s ∧
    (∀ c rest, exec (.cmdConfig (c :: rest)) s = .next { s with forwarded := s.forwarded ++ [.config (c :: rest)] }) ∧
    (∀ ops, exec (.cfgReadConfig ops) s = .next { s with forwarded := s.forwarded ++ [.config (0x30 :: ops)] }) ∧
    (∀ ops, exec (.cfgRunAutoDetect ops) s = .next { s with forwarded := s.forwarded ++ [.config (0x5B :: ops)] }) ∧
    ∀ control ops, ∃ c : Byte, 0xE0 ≤ c.toNat ∧ c.toNat % 32 = control.toNat ∧
      exec (.cfgPlayer control ops) s = .next { s with forwarded := s.forwarded ++ [.config (c :: ops)] }

/-! ## The ring, the producer's side -/

/-- Lazy initialisation (R170, R184): what `AsidInit` writes and what it leaves. -/
def Obligations.LazyInitialisation : Prop :=
  ∀ s : State,
    (s.drain.active = true → ensureActive s = s) ∧
      (s.drain.active = false →
        let t := ensureActive s
        let rate := if s.rate.baseRate ≠ 0 then max s.rate.baseRate.toNat 1 else s.par.rateDefault.toNat
        t.ring.size = 2240 ∧ t.ring.read = 0 ∧ t.ring.write = 0 ∧ t.drain.idleCount = 0 ∧
          t.rate.correctedRate.toNat = rate ∧ t.drain.irqPeriod = t.rate.correctedRate ∧ t.drain.irqCnt = 0 ∧
          t.drain.irqPending = false ∧ t.drain.active = true ∧
          { t.rate with correctedRate := s.rate.correctedRate } = s.rate ∧
          { t.drain with
            active := s.drain.active
            irqPending := s.drain.irqPending
            irqPeriod := s.drain.irqPeriod
            irqCnt := s.drain.irqCnt
            idleCount := s.drain.idleCount } = s.drain ∧
          { t with ring := s.ring, drain := s.drain, rate := s.rate } = s)

/-- `EV_PUSH` (R172): after the lazy initialisation the entry's four bytes stand at `ring_write`, every other byte of
the store is as before and the write cursor has moved on; or, when it would move onto `ring_read`, the push is
dropped: the ring is unchanged, `ovf` is set and `ovf_count` counts up, saturating. -/
def Obligations.PushStoresOrDrops : Prop :=
  ∀ (s : State) (register value : Byte) (delay : Cycles), primaryFree s = true →
    ∃ t, exec (.evPush register value delay) s = .next t ∧
      let b := ensureActive s
      let w := b.ring.write
      let next := (w + 4) % b.ring.size
      if next = b.ring.read then
        t.ring = b.ring ∧ t.ovf = true ∧ t.ovfCount.toNat = min (b.ovfCount.toNat + 1) (2 ^ 32 - 1) ∧
          { t with ovf := b.ovf, ovfCount := b.ovfCount } = b
      else
        ringByte t.ring w = register ∧ ringByte t.ring (w + 1) = value ∧
          (ringByte t.ring (w + 2)).toNat = delay.toNat / 256 ∧ (ringByte t.ring (w + 3)).toNat = delay.toNat % 256 ∧
          (∀ o, o < w ∨ w + 4 ≤ o → ringByte t.ring o = ringByte b.ring o) ∧
          t.ring.write = next ∧ t.ring.read = b.ring.read ∧ t.ring.size = b.ring.size ∧ { t with ring := b.ring } = b

/-- The overflow property (42_asid_ring.md section 2): a push that is not dropped adds one entry at the back of the
queue, and a dropped one finds the ring with no headroom. -/
def Obligations.PushAppendsToQueue : Prop :=
  ∀ (s : State) (register value : Byte) (delay : Cycles), RingInv s.ring →
    let t := pushEntry register value delay s
    (s.ring.next s.ring.write = s.ring.read → t.ring = s.ring ∧ s.ring.headroom = 0) ∧
      (s.ring.next s.ring.write ≠ s.ring.read →
        t.ring.fill = s.ring.fill + 4 ∧ t.ring.read ≠ t.ring.write ∧
          queue t.ring = queue s.ring ++ [register ++ value ++ delay])

/-- `Grow` keeps the queue: the entries, their order and `Fill()` are as before, `ring_read` does not move, and the
size rises by one step up to the maximum (42_asid_ring.md section 2), also across a wrapped boundary and when the
added space is smaller than the wrapped tail. The mask is 0 afterwards, as the pseudocode writes it (log 14). -/
def Obligations.GrowthKeepsQueue : Prop :=
  ∀ s : State, RingInv s.ring → s.ring.size < 16800 →
    let t := grow s
    queue t.ring = queue s.ring ∧ t.ring.fill = s.ring.fill ∧ t.ring.read = s.ring.read ∧
      t.ring.size = min (s.ring.size + 2240) 16800 ∧ RingInv t.ring ∧ t.drain.irqMask = false

/-- `ShrinkToDefault` (42_asid_ring.md section 2, 90_conflicts.md C7): taken exactly when both cursors lie unwrapped
below the default size, it changes only the size of the ring and keeps the queue; otherwise nothing of the ring
changes. Outside the ring only the mask may change: it is 0 after a size above the default was looked at, as the
pseudocode writes it (log 14). -/
def Obligations.ShrinkKeepsQueue : Prop :=
  ∀ s : State, RingInv s.ring →
    let t := shrinkToDefault s
    queue t.ring = queue s.ring ∧
      t.ring =
        { s.ring with
          size := if s.ring.read ≤ s.ring.write ∧ s.ring.write < 2240 then 2240 else s.ring.size } ∧
      RingInv t.ring ∧
      t.drain = { s.drain with irqMask := if 2240 < s.ring.size then false else s.drain.irqMask } ∧
      { t with ring := s.ring, drain := s.drain } = s

/-- `EV_PLAY_START` is `NewTune` (R181, R183): event code 0; the history is cleared, an auto-detected baseline is
forgotten, the size is reset where it may be; nothing queued is discarded, nothing is initialised, and nothing else
changes but the mask, which is 0 where the size was above the default (log 14). -/
def Obligations.PlayStartBeginsNewTune : Prop :=
  (∀ (p : Config.Params) (w : EventWord), w.code = 0 → decode p (.aev w) = .ok .evPlayStart) ∧
  ∀ s : State, primaryFree s = true → RingInv s.ring →
    ∃ t, exec .evPlayStart s = .next t ∧ histCount t = 0 ∧
      t.rate.baseRate = (if s.rate.rateExplicit = false then 0 else s.rate.baseRate) ∧
      { t.rate with hist := s.rate.hist, baseRate := s.rate.baseRate } = s.rate ∧
      queue t.ring = queue s.ring ∧
      t.ring =
        { s.ring with
          size := if s.ring.read ≤ s.ring.write ∧ s.ring.write < 2240 then 2240 else s.ring.size } ∧
      t.drain = { s.drain with irqMask := if 2240 < s.ring.size then false else s.drain.irqMask } ∧
      { t with rate := s.rate, ring := s.ring, drain := s.drain } = s

/-- `EV_PLAY_STOP` (R182): event code 1; no state changes. -/
def Obligations.PlayStopChangesNothing : Prop :=
  (∀ (p : Config.Params) (w : EventWord), w.code = 1 → decode p (.aev w) = .ok .evPlayStop) ∧
    ∀ s : State, primaryFree s = true → exec .evPlayStop s = .next s

/-! ## Arrivals and rate control -/

/-- `EV_SET_BASE_RATE` (R204): event code 2; the two registers, and nothing else (`corrected_rate` and a torn-down
subsystem stay); a baseline it has set survives `NewTune` and the teardown. -/
def Obligations.SetBaseRateWritesBaseline : Prop :=
  (∀ (p : Config.Params) (w : EventWord), w.code = 2 → decode p (.aev w) = .ok (.evSetBaseRate w.r)) ∧
  ∀ (s : State) (r : Ticks), primaryFree s = true →
    ∃ t, exec (.evSetBaseRate r) s = .next t ∧
      t.rate = { s.rate with baseRate := r, rateExplicit := decide (r ≠ 0) } ∧ { t with rate := s.rate } = s ∧
        (r ≠ 0 → (newTune t).rate.baseRate = r ∧ (newTune t).rate.rateExplicit = true) ∧
          (asidTeardown t).rate = t.rate

/-- `EV_FRAME(k)` for `k >= 1` (43_asid_rate.md section 1): after the lazy initialisation the estimate is raised to
at least `k + 1` and its age cleared; the history, the rate and everything else stay. -/
def Obligations.OtherChipFrameRaisesEstimate : Prop :=
  ∀ (s : State) (k : BitVec 2), primaryFree s = true → k ≠ 0 →
    ∃ t, exec (.evFrame k) s = .next t ∧
      let b := ensureActive s
      t.rate = { b.rate with chipsEst := max b.rate.chipsEst (k.toNat + 1), multiAge := 0 } ∧
        { t with rate := b.rate } = b

/-- `EV_FRAME(0)` (43_asid_rate.md section 1): the answer is `AdjustRate` of the average of the new window, on a state
`m` in which the subsystem is active, a gap has begun a new tune, the arrival is recorded, the estimate has aged, and
the history and the baseline are the new ones; `m` differs from the state before in nothing else. The adjustment leaves
the rate registers but `corrected_rate`, the read cursor, and everything outside ring, mask and rate registers. -/
def Obligations.ChipZeroFrameTracksArrival : Prop :=
  ∀ s : State, primaryFree s = true → Inv s →
    ∃ m t, exec (.evFrame 0) s = .next t ∧ t = adjustRate (historyRate m.rate.hist) m ∧
      let b := ensureActive s
      let gap := b.rate.lastValid = true ∧ s.par.clkHz / 2 < (s.cyc - b.rate.lastArrival).toNat
      m.rate.lastArrival = s.cyc ∧ m.rate.lastValid = true ∧
        m.rate.multiAge = min (b.rate.multiAge + 1) 30 ∧
        m.rate.chipsEst = (if b.rate.multiAge + 1 < 30 then b.rate.chipsEst else 1) ∧
        (gap → m.rate.hist = [s.cyc]) ∧
        (¬gap → m.rate.hist = (b.rate.hist ++ [s.cyc]).drop (b.rate.hist.length + 1 - 8)) ∧
        m.rate.rateExplicit = b.rate.rateExplicit ∧
        m.rate.baseRate =
          (if b.rate.rateExplicit = true then b.rate.baseRate
           else if gap then 0
           else if b.rate.baseRate = 0 then BitVec.ofNat 32 (historyRate m.rate.hist) else b.rate.baseRate) ∧
        m.rate.correctedRate = b.rate.correctedRate ∧
        m.ring = (if gap then (shrinkToDefault b).ring else b.ring) ∧
        m.drain = (if gap then (shrinkToDefault b).drain else b.drain) ∧
        { m with rate := b.rate, ring := b.ring, drain := b.drain } = b ∧
        { t.rate with correctedRate := m.rate.correctedRate } = m.rate ∧ t.ring.read = b.ring.read ∧
        { t.drain with irqMask := b.drain.irqMask } = b.drain ∧
        { t with rate := b.rate, ring := b.ring, drain := b.drain } = b

/-- The calculated rate (43_asid_rate.md section 2): fewer than eight arrivals give none; any eight give a seventh,
rounded down, of the span from the first to the last, modulo 2^32. Hence arrivals a constant distance apart give that
distance, wherever in the counter's range they lie and also across its wrap (the source's scenario). -/
def Obligations.EvenArrivalsGiveTheirSpacing : Prop :=
  (∀ hist : List Ticks, hist.length < 8 → historyRate hist = 0) ∧
  (∀ t0 t1 t2 t3 t4 t5 t6 t7 : Ticks,
    historyRate ([t0, t1, t2, t3, t4, t5, t6, t7].foldl pushHistory []) =
      (t7.toNat + (2 ^ 32 - t0.toNat)) % 2 ^ 32 / 7) ∧
  ∀ (start d : Ticks), 7 * d.toNat < 2 ^ 32 →
    ∀ n, n ≤ 8 →
      historyRate (((List.range n).map fun i => start + BitVec.ofNat 32 i * d).foldl pushHistory []) =
        if n = 8 then d.toNat else 0

/-- The history is the last eight arrivals, oldest first (R28 with R203's update). -/
def Obligations.HistoryKeepsLastEight : Prop :=
  ∀ arrivals : List Ticks, arrivals.foldl pushHistory [] = arrivals.drop (arrivals.length - 8)

/-- The chip estimate (43_asid_rate.md section 1): from a fresh multi-chip message it holds for 29 chip-0 messages and
is 1 from the thirtieth on, the age saturating at 30. -/
def Obligations.EstimateFallsAfterThirtyFrames : Prop :=
  ∀ (s : State) (n : Nat), s.rate.multiAge = 0 →
    (ageEstimate^[n] s).rate.multiAge = min n 30 ∧
      (ageEstimate^[n] s).rate.chipsEst = if n < 30 then s.rate.chipsEst else 1

/-- Room (R206), in terms of the size and the two cursors (R75): with less than four frames of headroom the ring
grows once where it can and the adjustment goes on with steps 2 to 5 on the grown ring; at the maximum the register
loses a quarter and nothing else changes; with room the adjustment is steps 2 to 5. -/
def Obligations.LowHeadroomGrowsOrCuts : Prop :=
  (∀ r : Ring, RingInv r →
    r.fill = (r.write + (r.size - r.read)) % r.size ∧ r.headroom + 4 + r.fill = r.size ∧ r.fill % 4 = 0) ∧
  ∀ (s : State) (calcRate : Nat),
    let fill := if s.ring.read ≤ s.ring.write then s.ring.write - s.ring.read
      else s.ring.size - s.ring.read + s.ring.write
    let headroom := s.ring.size - 4 - fill
    (headroom < 448 → s.ring.size < 16800 →
      adjustRate calcRate s = retarget calcRate (grow s) ∧ (adjustRate calcRate s).ring = (grow s).ring) ∧
    (headroom < 448 → 16800 ≤ s.ring.size →
      (adjustRate calcRate s).rate.correctedRate.toNat =
          max (s.rate.correctedRate.toNat - s.rate.correctedRate.toNat / 4) 1 ∧
        { adjustRate calcRate s with rate := s.rate } = s ∧
        { (adjustRate calcRate s).rate with correctedRate := s.rate.correctedRate } = s.rate) ∧
    (448 ≤ headroom → adjustRate calcRate s = retarget calcRate s ∧
      (adjustRate calcRate s).ring = s.ring ∧ (adjustRate calcRate s).drain = s.drain ∧
      (calcRate = 0 → adjustRate calcRate s = s))

/-- The target (R207, R208): the calculated rate over the estimate, nudged down by the eighth above 90 percent, up by
the sixteenth below half a frame, else left; then clamped, and tried against the register. No rate, no change. -/
def Obligations.TargetIsNudgedByFill : Prop :=
  Config.Params.default.nudgeFullDiv = 8 ∧ Config.Params.default.nudgeLowDiv = 16 ∧
  ∀ (s : State) (calcRate : Nat), RingInv s.ring →
    let t := calcRate / s.rate.chipsEst
    (retarget calcRate s = if calcRate = 0 then s else applyTarget (targetRate calcRate s) s) ∧
    ¬(90 < s.ring.fill * 100 / s.ring.size ∧ s.ring.fill < 56) ∧
    (90 < s.ring.fill * 100 / s.ring.size →
      targetRate calcRate s = clampTarget s.rate.baseRate.toNat (t - t / s.par.nudgeFullDiv)) ∧
    (s.ring.fill < 56 → targetRate calcRate s = clampTarget s.rate.baseRate.toNat (t + t / s.par.nudgeLowDiv)) ∧
    (s.ring.fill * 100 / s.ring.size ≤ 90 → 56 ≤ s.ring.fill →
      targetRate calcRate s = clampTarget s.rate.baseRate.toNat t)

/-- The clamp (R209): with a baseline a target below its sixth becomes that sixth, one above its twelve tenths becomes
those, one between is kept, both ends rounded down; without a baseline no band applies; the floor is one tick in every
case. -/
def Obligations.ClampKeepsTargetInBand : Prop :=
  ∀ base target : Nat,
    1 ≤ clampTarget base target ∧
      (base ≠ 0 → max (base / 6) 1 ≤ clampTarget base target ∧ clampTarget base target ≤ max (base * 12 / 10) 1) ∧
      (base ≠ 0 → target < base / 6 → clampTarget base target = max (base / 6) 1) ∧
      (base ≠ 0 → base * 12 / 10 < target → clampTarget base target = max (base * 12 / 10) 1) ∧
      (base ≠ 0 → base / 6 ≤ target → target ≤ base * 12 / 10 → clampTarget base target = max target 1) ∧
      (base = 0 → clampTarget base target = max target 1)

/-- Hysteresis (R210): the register takes the target exactly when they differ by more than 50; the timer takes the
register at its next reload and not before. -/
def Obligations.HysteresisIsStrict : Prop :=
  (∀ s : State, s.drain.active = true →
    (timerTick s).drain.irqPeriod =
      if s.drain.irqPeriod.toNat ≤ s.drain.irqCnt.toNat + 1 then s.rate.correctedRate else s.drain.irqPeriod) ∧
  ∀ (s : State) (target : Nat), target < 2 ^ 32 →
    (target + 50 < s.rate.correctedRate.toNat ∨ s.rate.correctedRate.toNat + 50 < target →
      (applyTarget target s).rate.correctedRate.toNat = target ∧
        { applyTarget target s with rate := s.rate } = s ∧
        { (applyTarget target s).rate with correctedRate := s.rate.correctedRate } = s.rate) ∧
    (s.rate.correctedRate.toNat ≤ target + 50 → target ≤ s.rate.correctedRate.toNat + 50 → applyTarget target s = s)

/-- No stored rate is truncated (43_asid_rate.md section 4): every target formed from an average of the history fits
the 32-bit register, whatever the history, the fill and the baseline. -/
def Obligations.TargetFitsRateRegister : Prop :=
  ∀ (s : State) (hist : List Ticks), targetRate (historyRate hist) s < 2 ^ 32 ∧ historyRate hist < 2 ^ 32

/-- The emergency cut (R211): the register loses a quarter, rounded down, whatever the rate, and is never below one
tick. Repeated cuts stop at three ticks: from three or more the register reaches 3 and stays, never passing below; from
one or two it does not move. -/
def Obligations.EmergencyCutsStopAtThree : Prop :=
  ∀ s : State,
    (emergency s).rate.correctedRate.toNat =
        max (s.rate.correctedRate.toNat - s.rate.correctedRate.toNat / 4) 1 ∧
    { emergency s with rate := s.rate } = s ∧
    { (emergency s).rate with correctedRate := s.rate.correctedRate } = s.rate ∧
    (s.ring.headroom < 448 → s.ring.size = 16800 → ∀ calcRate, adjustRate calcRate s = emergency s) ∧
    (3 ≤ s.rate.correctedRate.toNat →
      (∀ n, 3 ≤ (emergency^[n] s).rate.correctedRate.toNat) ∧
        ∃ n, ∀ m, n ≤ m → (emergency^[m] s).rate.correctedRate.toNat = 3) ∧
    (1 ≤ s.rate.correctedRate.toNat → s.rate.correctedRate.toNat ≤ 3 → emergency s = s)

/-! ## The drain -/

/-- The timer (R177), which moves at every tick boundary before the sequencer: counting from 0, it fires at exactly the
`irq_period`-th tick and not before, takes the new rate there, and counts from 0 again, a firing merging with one that
is pending; torn down it does not count. -/
def Obligations.TimerFiresEveryPeriod : Prop :=
  ∀ s : State,
    boundary s = seqTick (timerTick (countTick s)) ∧
    (s.drain.active = false → timerTick s = s) ∧
      (s.drain.active = true → s.drain.irqCnt = 0 → 1 ≤ s.drain.irqPeriod.toNat →
        (∀ k, k < s.drain.irqPeriod.toNat →
          timerTick^[k] s = { s with drain := { s.drain with irqCnt := BitVec.ofNat 32 k } }) ∧
        timerTick^[s.drain.irqPeriod.toNat] s =
          { s with drain := { s.drain with irqCnt := 0, irqPeriod := s.rate.correctedRate, irqPending := true } })

/-- The gate (42_asid_ring.md section 3): exactly under its six conditions does `EV_TIMER` start a service; closed, the
state stays as it is (the model's form of the waiting firing, log 19). With
more than one frame in the ring the service runs with a burst of 28 before it; with less it ends at once as an idle
one. -/
def Obligations.TimerStartsServiceThroughGate : Prop :=
  ∀ s : State,
    (gateOpen s = true ↔
      s.drain.irqPending = true ∧ s.drain.active = true ∧ s.drain.irqMask = false ∧ s.drain.inService = false ∧
        s.seq.phase = .idle ∧ s.req.valid = false) ∧
    (gateOpen s = false → exec .evTimer s = .next s) ∧
    (gateOpen s = true → 112 < s.ring.fill →
      ∃ t, exec .evTimer s = .next t ∧ t.drain.irqPending = false ∧ t.drain.inService = true ∧ t.drain.left = 28 ∧
        t.drain.delivered = 0 ∧ t.drain.idleCount = s.drain.idleCount ∧ { t with drain := s.drain } = s) ∧
    (gateOpen s = true → s.ring.fill ≤ 112 →
      ∃ t, exec .evTimer s = .next t ∧ t.drain.irqPending = false ∧ t.drain.inService = false)

/-- Idle services and the teardown (R179): up to the hundredth they count, the service that would make it 101 tears
the subsystem down; the rate-tracking state survives. -/
def Obligations.HundredFirstIdleServiceTearsDown : Prop :=
  ∀ s : State, gateOpen s = true → s.ring.fill ≤ 112 →
    ∃ t, exec .evTimer s = .next t ∧ t.rate = s.rate ∧ t.ovf = s.ovf ∧ t.ovfCount = s.ovfCount ∧
      t.trace = s.trace ∧ t.shadow = s.shadow ∧
      (s.drain.idleCount < 100 →
        t.drain.idleCount = s.drain.idleCount + 1 ∧ t.drain.active = true ∧ t.ring = s.ring) ∧
      (100 ≤ s.drain.idleCount →
        t.drain.active = false ∧ t.drain.irqPending = false ∧ t.ring.read = 0 ∧ t.ring.write = 0 ∧
          t.ring.size = 2240 ∧ t.drain.idleCount = 0)

/-- `RING_ENTRY` (42_asid_ring.md section 3): taken by a running service it moves the read cursor on, counts, and
requests the entry's cycled write, which is accepted at once; the write cursor, the size and the bytes of the ring
stay. Outside a service that is ready for an entry nothing happens (the model's choice, log 19). -/
def Obligations.RingEntryIsCycledWrite : Prop :=
  ∀ (s : State) (register value : Byte) (delay : Cycles),
    (entryReady s = false → exec (.ringEntry register value delay) s = .next s) ∧
      (entryReady s = true →
        ∃ t, exec (.ringEntry register value delay) s = .next t ∧
          t.ring = { s.ring with read := (s.ring.read + 4) % s.ring.size } ∧
          t.drain = { s.drain with left := s.drain.left - 1, delivered := s.drain.delivered + 1 } ∧
          { t with ring := s.ring, drain := s.drain } = present (.cycledWrite register value delay) s ∧
          t.req.valid = false)

/-- A service, from the open gate to its end with no other input and no pauses between its entries (log 20), hands the
28 oldest entries to the bus in order, as cycled writes each begun at the completion of the one before: the chips see,
the shadow holds and the counter reads what those 28 transactions give; the read cursor has moved by 28 entries and
the idle count is 0. -/
def Obligations.ServiceDeliversOldestFrame : Prop :=
  ∀ s : State, Inv s → gateOpen s = true → s.resumed = false → s.inbox = [] → s.pace.handler = [] →
    112 < s.ring.fill →
    ∃ k u, Sys2Proof.core.run k s = .next u ∧ u.drain.inService = false ∧
      let v := ((queue s.ring).take 28).foldl (fun v w => transact (entryRequest w) v) s
      u.trace = v.trace ∧ u.shadow = v.shadow ∧ u.cyc = v.cyc ∧ u.drain.idleCount = 0 ∧
        queue u.ring = (queue s.ring).drop 28 ∧ u.ring.write = s.ring.write ∧ u.ring.size = s.ring.size ∧
        u.ring.mem = s.ring.mem ∧ u.prim = s.prim

/-- A service may come between two operations of a burst (70_reset_and_hazards.md section 2): with the primary context
inside a burst, the gate open and no other input, the service runs whole, and the step after its end presents the next
operation of the burst on the state the service left (no pauses: log 20; before a further firing: log 7). -/
def Obligations.ServiceComesBetweenBurstOperations : Prop :=
  ∀ (s : State) (r : BusRequest) (rest : List BusRequest), Inv s → gateOpen s = true → s.resumed = false →
    s.inbox = [] → s.pace.handler = [] → s.pace.primary = [] → s.prim.todo = r :: rest → 112 < s.ring.fill →
      ∃ k u, Sys2Proof.core.run k s = .next u ∧ u.drain.inService = false ∧ u.prim = s.prim ∧
        u.trace = (((queue s.ring).take 28).foldl (fun v w => transact (entryRequest w) v) s).trace ∧
        queue u.ring = (queue s.ring).drop 28 ∧
        step u = .next (present r { u with prim := { u.prim with todo := rest }, resumed := false })

/-! ## The step -/

/-- A step runs the decoded instruction: with the primary context free, no firing to serve and a word due at a
port that decodes to `i`, the step is `exec i` with the word taken from the inputs; a word that stands for no
instruction is taken and ignored (for an empty buffer the model's choice, log 15). That the word goes before a firing
where a service has just ended, `resumed`, is the model's choice (log 7). -/
def Obligations.StepRunsDecodedWord : Prop :=
  ∀ (s : State) (c : Code) (rest : List Input), primaryFree s = true → (gateOpen s = false ∨ s.resumed = true) →
    s.inbox = { wait := 0, item := .code c } :: rest →
    (∀ i, decode s.par c = .ok i → step s = exec i { s with inbox := rest, resumed := false }) ∧
      ∀ e, decode s.par c = .error e → step s = .next { s with inbox := rest, resumed := false }

/-- A running service runs the entry at the ring read cursor, unless the handler pauses before it (log 20), in which
case a boundary passes: its four bytes, high byte of the delay first. -/
def Obligations.StepRunsEntryAtReadCursor : Prop :=
  ∀ s : State, entryReady s = true → dueEnv s = none →
    ∃ delay : Cycles,
      delay.toNat = (ringByte s.ring (s.ring.read + 2)).toNat * 256 + (ringByte s.ring (s.ring.read + 3)).toNat ∧
        step s =
          if s.pace.handler.headD 0 = 0 then
            exec (.ringEntry (ringByte s.ring s.ring.read) (ringByte s.ring (s.ring.read + 1)) delay)
              { s with pace := { s.pace with handler := s.pace.handler.tail } }
          else .next (boundary s)

/-- An open gate is served before the environment and before the primary context's next request, unless a service
has just ended and the primary context has a step to take (60_exceptions.md; the order is the model's, log 7 and 20). -/
def Obligations.StepServesGateFirst : Prop :=
  ∀ s : State, gateOpen s = true → (s.resumed = false ∨ primaryHasStep s = false) → step s = exec .evTimer s

/-- While an operation is outstanding and the environment has nothing to do, a step is one tick boundary: the
counter, then the timer, then the sequencer (60_exceptions.md, the order at one boundary). That an input which is due
waits meanwhile is the model's: the requester is held to completion (log 22), commands and events wait for any
requester's operation (log 18), and the environment alone goes before the boundary (log 20). With nothing
outstanding, no agent with anything to do and no firing to serve, it is one too, in which the sequencer does nothing:
the counter counts, and the timer where the subsystem is active (60_exceptions.md section 5). -/
def Obligations.BusyStepIsBoundary : Prop :=
  (∀ s : State, quiet s = false → dueEnv s = none →
    step s = .next (boundary s) ∧ (boundary s).cyc = s.cyc + 1 ∧
      boundary s = seqTick (timerTick (countTick s)) ∧
        { countTick s with cyc := s.cyc, resLeft := s.resLeft, inbox := s.inbox, resumed := s.resumed } = s) ∧
  ∀ s : State, primaryFree s = true → gateOpen s = false → dueItem s = none →
    step s = .next (boundary s) ∧ (boundary s).cyc = s.cyc + 1 ∧ boundary s = timerTick (countTick s) ∧
      { boundary s with
        cyc := s.cyc
        resLeft := s.resLeft
        inbox := s.inbox
        resumed := s.resumed
        drain := s.drain } = s ∧
      (s.drain.active = false → (boundary s).drain = s.drain)

/-- No step of the machine stops: the block has no fault, and the step never presents a second request. -/
def Obligations.EveryStepContinues : Prop :=
  ∀ s : State, ∃ t, step s = .next t

/-- The counter moves by one tick or not at all in a step, and only by a tick boundary; a power-on reset leaves it (the
model's choice, log 13). -/
def Obligations.CounterMovesByTicksOnly : Prop :=
  ∀ s t : State, step s = .next t → t.cyc = s.cyc ∨ (t.cyc = s.cyc + 1 ∧ t = boundary s)

/-- The routing swap (20_memory.md section 3): requested while the sequencer is busy it waits, the table staying as it
is; with the sequencer idle and no firing to serve it replaces the whole table and nothing else but the mask flag,
which it leaves at 0 (log 14). -/
def Obligations.RoutingSwapWaitsForIdle : Prop :=
  ∀ (s : State) (rt : RouteTable) (rest : List Input), s.inbox = { wait := 0, item := .env (.swap rt) } :: rest →
    (busy s = true → ∃ t, step s = .next t ∧ t.rt = s.rt ∧ t.inbox = s.inbox) ∧
      (s.seq.phase = .idle → gateOpen s = false →
        step s = .next { s with rt := rt, inbox := rest, drain := { s.drain with irqMask := false } })

/-- The mask of the critical sections (20_memory.md section 3, 10_state.md section 7): while it is 1 the environment is
inside the section of a routing swap, its next input (log 23), and every step keeps that; it is 0 at reset. That a clock
change does not hold the mask over ticks is the model's choice (log 25). -/
def Obligations.MaskIsHeldForSwapOnly : Prop :=
  MaskInv State.reset ∧ ∀ s t : State, MaskInv s → step s = .next t → MaskInv t

/-- A clock change (70_reset_and_hazards.md section 2): with nothing outstanding and no service it changes `CLK_HZ`,
and with it `GAP_TICKS`, and no state; while an operation is outstanding it waits. That its masked section takes zero
ticks, so that no state with the mask at 1 is seen, is the model's choice (log 25). -/
def Obligations.ClockChangeKeepsState : Prop :=
  ∀ (s : State) (hz : Nat) (rest : List Input), s.inbox = { wait := 0, item := .env (.setClock hz) } :: rest →
    (quiet s = false → step s = .next (boundary s) ∧ (boundary s).par = s.par ∧ (boundary s).inbox = s.inbox) ∧
      (quiet s = true → s.drain.inService = false → gateOpen s = false →
        ∃ t, step s = .next t ∧ t = { s with par := { s.par with clkHz := hz }, inbox := rest } ∧ gapTicks t = hz / 2)

/-- The invariants of 10_state.md section 9 hold at reset. -/
def Obligations.ResetSatisfiesInvariant : Prop := Inv State.reset

/-- Every step keeps the invariants of 10_state.md section 9, the legal values and the canonical memories, from every
state that has them, whatever the inputs. -/
def Obligations.StepKeepsInvariant : Prop :=
  ∀ s t : State, Inv s → step s = .next t → Inv t

/-! ## Encodings -/

/-- Decode and encode agree for every well-formed instruction, under all model arguments. -/
def Obligations.EncodingsDecodeBack : Prop :=
  ∀ (p : Config.Params) (i : Instr), WellFormed p i = true → decode p (encode p i) = .ok i

/-- Every instruction a word decodes to is well-formed. -/
def Obligations.DecodedWordsAreWellFormed : Prop :=
  ∀ (p : Config.Params) (c : Code) (i : Instr), decode p c = .ok i → WellFormed p i = true

/-- Every command buffer with a byte 0 decodes, by its top two bits (R91); in the command class bit 5 takes no part. -/
def Obligations.EveryBufferDecodesByClass : Prop :=
  ∀ (p : Config.Params) (b : Byte) (rest : List Byte),
    (b.toNat / 64 = 0 → ∃ n : BitVec 6, n.toNat = b.toNat % 64 ∧ decode p (.cmd (b :: rest)) = .ok (.cmdWrite n rest)) ∧
    (b.toNat / 64 = 1 → decode p (.cmd (b :: rest)) = .ok (.cmdRead rest.head?)) ∧
    (b.toNat / 64 = 2 →
      ∃ n : BitVec 6, n.toNat = b.toNat % 64 ∧ decode p (.cmd (b :: rest)) = .ok (.cmdCycledWrite n rest)) ∧
    (b.toNat / 64 = 3 → (∃ i, decode p (.cmd (b :: rest)) = .ok i) ∧
      decode p (.cmd ((b ^^^ 0x20) :: rest)) = decode p (.cmd (b :: rest)))

/-- Words written out from the encodings of 30_encoding.md decode to the instructions they stand for: a buffer of
each class, every sub-opcode of the reserved range (R98; with its bit 5 at 0 or 1), the three config commands, a
request, an event of each code (R102) and a ring entry. The names of the sub-opcodes are general knowledge (log 5).
-/
def Obligations.KnownWordsDecode : Prop :=
  let p := Config.Params.default
  decode p (.cmd [0x00, 0x18, 0x0F]) = .ok (.cmdWrite 0 [0x18, 0x0F]) ∧
    decode p (.cmd [0x40, 0x1B]) = .ok (.cmdRead (some 0x1B)) ∧
    decode p (.cmd [0x80, 0x18, 0x0F, 0x00, 0x0A]) = .ok (.cmdCycledWrite 0 [0x18, 0x0F, 0x00, 0x0A]) ∧
    decode p (.cmd [0xD2, 0x30]) = .ok (.cfgReadConfig []) ∧
    decode p (.cmd [0xF2, 0x5B]) = .ok (.cfgRunAutoDetect []) ∧
    decode p (.cmd [0xD2, 0xE5, 0x01]) = .ok (.cfgPlayer 0x05 [0x01]) ∧
    decode p (.cmd [0xD2, 0x31]) = .ok (.cmdConfig [0x31]) ∧
    decode p (.cmd [0xC1]) = .ok (.cmdUnassigned 1) ∧
    (∀ w ∈ ([(0xCA, 0xEA, .cmdPause), (0xCB, 0xEB, .cmdUnpause), (0xCC, 0xEC, .cmdMute), (0xCD, 0xED, .cmdUnmute),
        (0xCE, 0xEE, .cmdResetSid), (0xCF, 0xEF, .cmdDisableSid), (0xD0, 0xF0, .cmdEnableSid),
        (0xD1, 0xF1, .cmdClearBus), (0xD3, 0xF3, .cmdResetMcu), (0xD4, 0xF4, .cmdBootloader)] :
          List (Byte × Byte × Instr)),
      decode p (.cmd [w.1]) = .ok w.2.2 ∧ decode p (.cmd [w.2.1]) = .ok w.2.2) ∧
    decode p (.req { op := 0b10, addr := 0x1B, data := 0xFF, cycles := 5 }) = .ok (.busCycledRead 0x1B 5) ∧
    decode p (.aev { code := 0, r := 0, k := 0, register := 0, value := 0, delay := 0 }) = .ok .evPlayStart ∧
    decode p (.aev { code := 1, r := 0, k := 0, register := 0, value := 0, delay := 0 }) = .ok .evPlayStop ∧
    decode p (.aev { code := 2, r := 0x4CC8, k := 0, register := 0, value := 0, delay := 0 }) =
      .ok (.evSetBaseRate 0x4CC8) ∧
    decode p (.aev { code := 3, r := 0, k := 2, register := 0, value := 0, delay := 0 }) = .ok (.evFrame 2) ∧
    decode p (.aev { code := 4, r := 0, k := 0, register := 0x18, value := 0x0F, delay := 0x0102 }) =
      .ok (.evPush 0x18 0x0F 0x0102) ∧
    decode p (.aev { code := 6, r := 0, k := 0, register := 0, value := 0, delay := 0 }) = .error .eventUnassigned ∧
    decode p (.ent 0x180F0102) = .ok (.ringEntry 0x18 0x0F 0x0102)
end

