-- ==== Sys2Proof/Laws/Frames.lean ====
section
/-! SUPPORT. The frame of every shared operation: what it leaves unchanged, as rewriting rules (each conjunct is one).
An operation's proof cites those of the operations it is made of. -/

namespace Sys2Proof.Machine

/-- enterXfer changes only: seq pins trace (R127). -/
@[simp] theorem enterXfer_frame (s : State) :
    (enterXfer s).par = s.par ∧ (enterXfer s).cyc = s.cyc ∧ (enterXfer s).req = s.req ∧
    (enterXfer s).result = s.result ∧ (enterXfer s).resultValid = s.resultValid ∧ (enterXfer s).resLeft = s.resLeft ∧
    (enterXfer s).mute = s.mute ∧ (enterXfer s).rt = s.rt ∧ (enterXfer s).shadow = s.shadow ∧
    (enterXfer s).ring = s.ring ∧ (enterXfer s).drain = s.drain ∧ (enterXfer s).rate = s.rate ∧
    (enterXfer s).ovf = s.ovf ∧ (enterXfer s).ovfCount = s.ovfCount ∧ (enterXfer s).prim = s.prim ∧
    (enterXfer s).resumed = s.resumed ∧ (enterXfer s).inbox = s.inbox ∧ (enterXfer s).pace = s.pace ∧
    (enterXfer s).replies = s.replies ∧
    (enterXfer s).forwarded = s.forwarded ∧ (enterXfer s).reads = s.reads := by
  simp [enterXfer]

/-- startTransfer changes only: seq pins trace (R127). -/
@[simp] theorem startTransfer_frame (n : Cycles) (s : State) :
    (startTransfer n s).par = s.par ∧ (startTransfer n s).cyc = s.cyc ∧ (startTransfer n s).req = s.req ∧
    (startTransfer n s).result = s.result ∧ (startTransfer n s).resultValid = s.resultValid ∧
    (startTransfer n s).resLeft = s.resLeft ∧ (startTransfer n s).mute = s.mute ∧ (startTransfer n s).rt = s.rt ∧
    (startTransfer n s).shadow = s.shadow ∧ (startTransfer n s).ring = s.ring ∧ (startTransfer n s).drain = s.drain ∧
    (startTransfer n s).rate = s.rate ∧ (startTransfer n s).ovf = s.ovf ∧ (startTransfer n s).ovfCount = s.ovfCount ∧
    (startTransfer n s).prim = s.prim ∧ (startTransfer n s).resumed = s.resumed ∧
    (startTransfer n s).inbox = s.inbox ∧ (startTransfer n s).pace = s.pace ∧ (startTransfer n s).replies = s.replies ∧
    (startTransfer n s).forwarded = s.forwarded ∧ (startTransfer n s).reads = s.reads := by
  unfold startTransfer; split <;> simp

/-- acceptWrite changes only: seq pins shadow trace (R127). -/
@[simp] theorem acceptWrite_frame (n : Cycles) (s : State) :
    (acceptWrite n s).par = s.par ∧ (acceptWrite n s).cyc = s.cyc ∧ (acceptWrite n s).req = s.req ∧
    (acceptWrite n s).result = s.result ∧ (acceptWrite n s).resultValid = s.resultValid ∧
    (acceptWrite n s).resLeft = s.resLeft ∧ (acceptWrite n s).mute = s.mute ∧ (acceptWrite n s).rt = s.rt ∧
    (acceptWrite n s).ring = s.ring ∧ (acceptWrite n s).drain = s.drain ∧ (acceptWrite n s).rate = s.rate ∧
    (acceptWrite n s).ovf = s.ovf ∧ (acceptWrite n s).ovfCount = s.ovfCount ∧ (acceptWrite n s).prim = s.prim ∧
    (acceptWrite n s).resumed = s.resumed ∧ (acceptWrite n s).inbox = s.inbox ∧ (acceptWrite n s).pace = s.pace ∧
    (acceptWrite n s).replies = s.replies ∧ (acceptWrite n s).forwarded = s.forwarded ∧
    (acceptWrite n s).reads = s.reads := by
  unfold acceptWrite; split <;> simp

/-- acceptRead changes only: result resultValid seq pins trace (R127). -/
@[simp] theorem acceptRead_frame (s : State) :
    (acceptRead s).par = s.par ∧ (acceptRead s).cyc = s.cyc ∧ (acceptRead s).req = s.req ∧
    (acceptRead s).resLeft = s.resLeft ∧ (acceptRead s).mute = s.mute ∧ (acceptRead s).rt = s.rt ∧
    (acceptRead s).shadow = s.shadow ∧ (acceptRead s).ring = s.ring ∧ (acceptRead s).drain = s.drain ∧
    (acceptRead s).rate = s.rate ∧ (acceptRead s).ovf = s.ovf ∧ (acceptRead s).ovfCount = s.ovfCount ∧
    (acceptRead s).prim = s.prim ∧ (acceptRead s).resumed = s.resumed ∧ (acceptRead s).inbox = s.inbox ∧
    (acceptRead s).pace = s.pace ∧
    (acceptRead s).replies = s.replies ∧ (acceptRead s).forwarded = s.forwarded ∧ (acceptRead s).reads = s.reads := by
  unfold acceptRead; split <;> simp

/-- acceptDelay changes only: seq (R127). -/
@[simp] theorem acceptDelay_frame (s : State) :
    (acceptDelay s).par = s.par ∧ (acceptDelay s).cyc = s.cyc ∧ (acceptDelay s).req = s.req ∧
    (acceptDelay s).result = s.result ∧ (acceptDelay s).resultValid = s.resultValid ∧ (acceptDelay s).pins = s.pins ∧
    (acceptDelay s).resLeft = s.resLeft ∧ (acceptDelay s).mute = s.mute ∧ (acceptDelay s).rt = s.rt ∧
    (acceptDelay s).shadow = s.shadow ∧ (acceptDelay s).ring = s.ring ∧ (acceptDelay s).drain = s.drain ∧
    (acceptDelay s).rate = s.rate ∧ (acceptDelay s).ovf = s.ovf ∧ (acceptDelay s).ovfCount = s.ovfCount ∧
    (acceptDelay s).prim = s.prim ∧ (acceptDelay s).resumed = s.resumed ∧ (acceptDelay s).inbox = s.inbox ∧
    (acceptDelay s).pace = s.pace ∧
    (acceptDelay s).trace = s.trace ∧ (acceptDelay s).replies = s.replies ∧ (acceptDelay s).forwarded = s.forwarded ∧
    (acceptDelay s).reads = s.reads := by
  unfold acceptDelay; split <;> simp

/-- accept changes only: req result resultValid seq pins shadow trace (R127). -/
@[simp] theorem accept_frame (s : State) :
    (accept s).par = s.par ∧ (accept s).cyc = s.cyc ∧ (accept s).resLeft = s.resLeft ∧ (accept s).mute = s.mute ∧
    (accept s).rt = s.rt ∧ (accept s).ring = s.ring ∧ (accept s).drain = s.drain ∧ (accept s).rate = s.rate ∧
    (accept s).ovf = s.ovf ∧ (accept s).ovfCount = s.ovfCount ∧ (accept s).prim = s.prim ∧
    (accept s).resumed = s.resumed ∧ (accept s).inbox = s.inbox ∧ (accept s).pace = s.pace ∧
    (accept s).replies = s.replies ∧
    (accept s).forwarded = s.forwarded ∧ (accept s).reads = s.reads := by
  unfold accept; dsimp only; split <;> simp

/-- endXfer changes only: result resultValid seq pins shadow trace reads (R127). -/
@[simp] theorem endXfer_frame (s : State) :
    (endXfer s).par = s.par ∧ (endXfer s).cyc = s.cyc ∧ (endXfer s).req = s.req ∧ (endXfer s).resLeft = s.resLeft ∧
    (endXfer s).mute = s.mute ∧ (endXfer s).rt = s.rt ∧ (endXfer s).ring = s.ring ∧ (endXfer s).drain = s.drain ∧
    (endXfer s).rate = s.rate ∧ (endXfer s).ovf = s.ovf ∧ (endXfer s).ovfCount = s.ovfCount ∧
    (endXfer s).prim = s.prim ∧ (endXfer s).resumed = s.resumed ∧ (endXfer s).inbox = s.inbox ∧
    (endXfer s).pace = s.pace ∧
    (endXfer s).replies = s.replies ∧ (endXfer s).forwarded = s.forwarded := by
  unfold endXfer; dsimp only; split <;> simp

/-- advanceSeq changes only: result resultValid seq pins shadow trace reads (R127). -/
@[simp] theorem advanceSeq_frame (s : State) :
    (advanceSeq s).par = s.par ∧ (advanceSeq s).cyc = s.cyc ∧ (advanceSeq s).req = s.req ∧
    (advanceSeq s).resLeft = s.resLeft ∧ (advanceSeq s).mute = s.mute ∧ (advanceSeq s).rt = s.rt ∧
    (advanceSeq s).ring = s.ring ∧ (advanceSeq s).drain = s.drain ∧ (advanceSeq s).rate = s.rate ∧
    (advanceSeq s).ovf = s.ovf ∧ (advanceSeq s).ovfCount = s.ovfCount ∧ (advanceSeq s).prim = s.prim ∧
    (advanceSeq s).resumed = s.resumed ∧ (advanceSeq s).inbox = s.inbox ∧ (advanceSeq s).pace = s.pace ∧
    (advanceSeq s).replies = s.replies ∧
    (advanceSeq s).forwarded = s.forwarded := by
  unfold advanceSeq; split
  · simp
  · dsimp only; split
    · split <;> simp
    · simp
  · dsimp only; split <;> simp

/-- seqTick changes only: req result resultValid seq pins shadow trace reads (R127). -/
@[simp] theorem seqTick_frame (s : State) :
    (seqTick s).par = s.par ∧ (seqTick s).cyc = s.cyc ∧ (seqTick s).resLeft = s.resLeft ∧ (seqTick s).mute = s.mute ∧
    (seqTick s).rt = s.rt ∧ (seqTick s).ring = s.ring ∧ (seqTick s).drain = s.drain ∧ (seqTick s).rate = s.rate ∧
    (seqTick s).ovf = s.ovf ∧ (seqTick s).ovfCount = s.ovfCount ∧ (seqTick s).prim = s.prim ∧
    (seqTick s).resumed = s.resumed ∧ (seqTick s).inbox = s.inbox ∧ (seqTick s).pace = s.pace ∧
    (seqTick s).replies = s.replies ∧
    (seqTick s).forwarded = s.forwarded := by
  unfold seqTick; dsimp only; split <;> simp

/-- writeRequest changes only: req (R126). -/
@[simp] theorem writeRequest_frame (r : BusRequest) (s : State) :
    (writeRequest r s).par = s.par ∧ (writeRequest r s).cyc = s.cyc ∧ (writeRequest r s).result = s.result ∧
    (writeRequest r s).resultValid = s.resultValid ∧ (writeRequest r s).seq = s.seq ∧
    (writeRequest r s).pins = s.pins ∧ (writeRequest r s).resLeft = s.resLeft ∧ (writeRequest r s).mute = s.mute ∧
    (writeRequest r s).rt = s.rt ∧ (writeRequest r s).shadow = s.shadow ∧ (writeRequest r s).ring = s.ring ∧
    (writeRequest r s).drain = s.drain ∧ (writeRequest r s).rate = s.rate ∧ (writeRequest r s).ovf = s.ovf ∧
    (writeRequest r s).ovfCount = s.ovfCount ∧ (writeRequest r s).prim = s.prim ∧
    (writeRequest r s).resumed = s.resumed ∧ (writeRequest r s).inbox = s.inbox ∧ (writeRequest r s).pace = s.pace ∧
    (writeRequest r s).trace = s.trace ∧
    (writeRequest r s).replies = s.replies ∧ (writeRequest r s).forwarded = s.forwarded ∧
    (writeRequest r s).reads = s.reads := by
  unfold writeRequest; split <;> simp

/-- present changes only: req result resultValid seq pins shadow trace (R126). -/
@[simp] theorem present_frame (r : BusRequest) (s : State) :
    (present r s).par = s.par ∧ (present r s).cyc = s.cyc ∧ (present r s).resLeft = s.resLeft ∧
    (present r s).mute = s.mute ∧ (present r s).rt = s.rt ∧ (present r s).ring = s.ring ∧
    (present r s).drain = s.drain ∧ (present r s).rate = s.rate ∧ (present r s).ovf = s.ovf ∧
    (present r s).ovfCount = s.ovfCount ∧ (present r s).prim = s.prim ∧ (present r s).resumed = s.resumed ∧
    (present r s).inbox = s.inbox ∧ (present r s).pace = s.pace ∧ (present r s).replies = s.replies ∧
    (present r s).forwarded = s.forwarded ∧
    (present r s).reads = s.reads := by
  unfold present; dsimp only; split <;> simp

/-- timerTick changes only: drain (R177). -/
@[simp] theorem timerTick_frame (s : State) :
    (timerTick s).par = s.par ∧ (timerTick s).cyc = s.cyc ∧ (timerTick s).req = s.req ∧
    (timerTick s).result = s.result ∧ (timerTick s).resultValid = s.resultValid ∧ (timerTick s).seq = s.seq ∧
    (timerTick s).pins = s.pins ∧ (timerTick s).resLeft = s.resLeft ∧ (timerTick s).mute = s.mute ∧
    (timerTick s).rt = s.rt ∧ (timerTick s).shadow = s.shadow ∧ (timerTick s).ring = s.ring ∧
    (timerTick s).rate = s.rate ∧ (timerTick s).ovf = s.ovf ∧ (timerTick s).ovfCount = s.ovfCount ∧
    (timerTick s).prim = s.prim ∧ (timerTick s).resumed = s.resumed ∧ (timerTick s).inbox = s.inbox ∧
    (timerTick s).pace = s.pace ∧
    (timerTick s).trace = s.trace ∧ (timerTick s).replies = s.replies ∧ (timerTick s).forwarded = s.forwarded ∧
    (timerTick s).reads = s.reads := by
  unfold timerTick; split
  · split <;> simp
  · simp

/-- countTick changes only: cyc resLeft resumed inbox pace (R34). -/
@[simp] theorem countTick_frame (s : State) :
    (countTick s).par = s.par ∧ (countTick s).req = s.req ∧ (countTick s).result = s.result ∧
    (countTick s).resultValid = s.resultValid ∧ (countTick s).seq = s.seq ∧ (countTick s).pins = s.pins ∧
    (countTick s).mute = s.mute ∧ (countTick s).rt = s.rt ∧ (countTick s).shadow = s.shadow ∧
    (countTick s).ring = s.ring ∧ (countTick s).drain = s.drain ∧ (countTick s).rate = s.rate ∧
    (countTick s).ovf = s.ovf ∧ (countTick s).ovfCount = s.ovfCount ∧ (countTick s).prim = s.prim ∧
    (countTick s).trace = s.trace ∧ (countTick s).replies = s.replies ∧ (countTick s).forwarded = s.forwarded ∧
    (countTick s).reads = s.reads := by
  simp [countTick]

/-- boundary changes only: cyc req result resultValid seq pins shadow trace reads resLeft drain resumed inbox
pace (R234). -/
@[simp] theorem boundary_frame (s : State) :
    (boundary s).par = s.par ∧ (boundary s).mute = s.mute ∧ (boundary s).rt = s.rt ∧ (boundary s).ring = s.ring ∧
    (boundary s).rate = s.rate ∧ (boundary s).ovf = s.ovf ∧ (boundary s).ovfCount = s.ovfCount ∧
    (boundary s).prim = s.prim ∧ (boundary s).replies = s.replies ∧ (boundary s).forwarded = s.forwarded := by
  simp [boundary]

/-- asidInit changes only: ring drain rate (R170). -/
@[simp] theorem asidInit_frame (s : State) :
    (asidInit s).par = s.par ∧ (asidInit s).cyc = s.cyc ∧ (asidInit s).req = s.req ∧ (asidInit s).result = s.result ∧
    (asidInit s).resultValid = s.resultValid ∧ (asidInit s).seq = s.seq ∧ (asidInit s).pins = s.pins ∧
    (asidInit s).resLeft = s.resLeft ∧ (asidInit s).mute = s.mute ∧ (asidInit s).rt = s.rt ∧
    (asidInit s).shadow = s.shadow ∧ (asidInit s).ovf = s.ovf ∧ (asidInit s).ovfCount = s.ovfCount ∧
    (asidInit s).prim = s.prim ∧ (asidInit s).resumed = s.resumed ∧ (asidInit s).inbox = s.inbox ∧
    (asidInit s).pace = s.pace ∧
    (asidInit s).trace = s.trace ∧ (asidInit s).replies = s.replies ∧ (asidInit s).forwarded = s.forwarded ∧
    (asidInit s).reads = s.reads := by
  simp [asidInit]

/-- ensureActive changes only: ring drain rate (R184). -/
@[simp] theorem ensureActive_frame (s : State) :
    (ensureActive s).par = s.par ∧ (ensureActive s).cyc = s.cyc ∧ (ensureActive s).req = s.req ∧
    (ensureActive s).result = s.result ∧ (ensureActive s).resultValid = s.resultValid ∧ (ensureActive s).seq = s.seq ∧
    (ensureActive s).pins = s.pins ∧ (ensureActive s).resLeft = s.resLeft ∧ (ensureActive s).mute = s.mute ∧
    (ensureActive s).rt = s.rt ∧ (ensureActive s).shadow = s.shadow ∧ (ensureActive s).ovf = s.ovf ∧
    (ensureActive s).ovfCount = s.ovfCount ∧ (ensureActive s).prim = s.prim ∧ (ensureActive s).resumed = s.resumed ∧
    (ensureActive s).inbox = s.inbox ∧ (ensureActive s).pace = s.pace ∧ (ensureActive s).trace = s.trace ∧
    (ensureActive s).replies = s.replies ∧
    (ensureActive s).forwarded = s.forwarded ∧ (ensureActive s).reads = s.reads := by
  unfold ensureActive; split <;> simp

/-- asidTeardown changes only: ring drain (R171). -/
@[simp] theorem asidTeardown_frame (s : State) :
    (asidTeardown s).par = s.par ∧ (asidTeardown s).cyc = s.cyc ∧ (asidTeardown s).req = s.req ∧
    (asidTeardown s).result = s.result ∧ (asidTeardown s).resultValid = s.resultValid ∧ (asidTeardown s).seq = s.seq ∧
    (asidTeardown s).pins = s.pins ∧ (asidTeardown s).resLeft = s.resLeft ∧ (asidTeardown s).mute = s.mute ∧
    (asidTeardown s).rt = s.rt ∧ (asidTeardown s).shadow = s.shadow ∧ (asidTeardown s).rate = s.rate ∧
    (asidTeardown s).ovf = s.ovf ∧ (asidTeardown s).ovfCount = s.ovfCount ∧ (asidTeardown s).prim = s.prim ∧
    (asidTeardown s).resumed = s.resumed ∧ (asidTeardown s).inbox = s.inbox ∧ (asidTeardown s).pace = s.pace ∧
    (asidTeardown s).trace = s.trace ∧
    (asidTeardown s).replies = s.replies ∧ (asidTeardown s).forwarded = s.forwarded ∧
    (asidTeardown s).reads = s.reads := by
  simp [asidTeardown]

/-- pushEntry changes only: ring ovf ovfCount (R172). -/
@[simp] theorem pushEntry_frame (register value : Byte) (delay : Cycles) (s : State) :
    (pushEntry register value delay s).par = s.par ∧ (pushEntry register value delay s).cyc = s.cyc ∧
    (pushEntry register value delay s).req = s.req ∧ (pushEntry register value delay s).result = s.result ∧
    (pushEntry register value delay s).resultValid = s.resultValid ∧ (pushEntry register value delay s).seq = s.seq ∧
    (pushEntry register value delay s).pins = s.pins ∧ (pushEntry register value delay s).resLeft = s.resLeft ∧
    (pushEntry register value delay s).mute = s.mute ∧ (pushEntry register value delay s).rt = s.rt ∧
    (pushEntry register value delay s).shadow = s.shadow ∧ (pushEntry register value delay s).drain = s.drain ∧
    (pushEntry register value delay s).rate = s.rate ∧ (pushEntry register value delay s).prim = s.prim ∧
    (pushEntry register value delay s).resumed = s.resumed ∧ (pushEntry register value delay s).inbox = s.inbox ∧
    (pushEntry register value delay s).pace = s.pace ∧
    (pushEntry register value delay s).trace = s.trace ∧ (pushEntry register value delay s).replies = s.replies ∧
    (pushEntry register value delay s).forwarded = s.forwarded ∧
    (pushEntry register value delay s).reads = s.reads := by
  unfold pushEntry; split <;> simp [recordDrop]

/-- grow changes only: ring drain (R174). -/
@[simp] theorem grow_frame (s : State) :
    (grow s).par = s.par ∧ (grow s).cyc = s.cyc ∧ (grow s).req = s.req ∧ (grow s).result = s.result ∧
    (grow s).resultValid = s.resultValid ∧ (grow s).seq = s.seq ∧ (grow s).pins = s.pins ∧
    (grow s).resLeft = s.resLeft ∧ (grow s).mute = s.mute ∧ (grow s).rt = s.rt ∧ (grow s).shadow = s.shadow ∧
    (grow s).rate = s.rate ∧ (grow s).ovf = s.ovf ∧ (grow s).ovfCount = s.ovfCount ∧ (grow s).prim = s.prim ∧
    (grow s).resumed = s.resumed ∧ (grow s).inbox = s.inbox ∧ (grow s).pace = s.pace ∧ (grow s).trace = s.trace ∧
    (grow s).replies = s.replies ∧ (grow s).forwarded = s.forwarded ∧ (grow s).reads = s.reads := by
  simp [grow, critical, setMask]

/-- shrinkToDefault changes only: ring drain (R175). -/
@[simp] theorem shrinkToDefault_frame (s : State) :
    (shrinkToDefault s).par = s.par ∧ (shrinkToDefault s).cyc = s.cyc ∧ (shrinkToDefault s).req = s.req ∧
    (shrinkToDefault s).result = s.result ∧ (shrinkToDefault s).resultValid = s.resultValid ∧
    (shrinkToDefault s).seq = s.seq ∧ (shrinkToDefault s).pins = s.pins ∧ (shrinkToDefault s).resLeft = s.resLeft ∧
    (shrinkToDefault s).mute = s.mute ∧ (shrinkToDefault s).rt = s.rt ∧ (shrinkToDefault s).shadow = s.shadow ∧
    (shrinkToDefault s).rate = s.rate ∧ (shrinkToDefault s).ovf = s.ovf ∧ (shrinkToDefault s).ovfCount = s.ovfCount ∧
    (shrinkToDefault s).prim = s.prim ∧ (shrinkToDefault s).resumed = s.resumed ∧
    (shrinkToDefault s).inbox = s.inbox ∧ (shrinkToDefault s).pace = s.pace ∧ (shrinkToDefault s).trace = s.trace ∧
    (shrinkToDefault s).replies = s.replies ∧ (shrinkToDefault s).forwarded = s.forwarded ∧
    (shrinkToDefault s).reads = s.reads := by
  unfold shrinkToDefault; split
  · unfold critical setMask; dsimp only; split <;> simp
  · simp

/-- newTune changes only: ring drain rate (R183). -/
@[simp] theorem newTune_frame (s : State) :
    (newTune s).par = s.par ∧ (newTune s).cyc = s.cyc ∧ (newTune s).req = s.req ∧ (newTune s).result = s.result ∧
    (newTune s).resultValid = s.resultValid ∧ (newTune s).seq = s.seq ∧ (newTune s).pins = s.pins ∧
    (newTune s).resLeft = s.resLeft ∧ (newTune s).mute = s.mute ∧ (newTune s).rt = s.rt ∧
    (newTune s).shadow = s.shadow ∧ (newTune s).ovf = s.ovf ∧ (newTune s).ovfCount = s.ovfCount ∧
    (newTune s).prim = s.prim ∧ (newTune s).resumed = s.resumed ∧ (newTune s).inbox = s.inbox ∧
    (newTune s).pace = s.pace ∧
    (newTune s).trace = s.trace ∧ (newTune s).replies = s.replies ∧ (newTune s).forwarded = s.forwarded ∧
    (newTune s).reads = s.reads := by
  simp [newTune]

/-- applyTarget changes only: rate (R210). -/
@[simp] theorem applyTarget_frame (target : Nat) (s : State) :
    (applyTarget target s).par = s.par ∧ (applyTarget target s).cyc = s.cyc ∧ (applyTarget target s).req = s.req ∧
    (applyTarget target s).result = s.result ∧ (applyTarget target s).resultValid = s.resultValid ∧
    (applyTarget target s).seq = s.seq ∧ (applyTarget target s).pins = s.pins ∧
    (applyTarget target s).resLeft = s.resLeft ∧ (applyTarget target s).mute = s.mute ∧
    (applyTarget target s).rt = s.rt ∧ (applyTarget target s).shadow = s.shadow ∧
    (applyTarget target s).ring = s.ring ∧ (applyTarget target s).drain = s.drain ∧
    (applyTarget target s).ovf = s.ovf ∧ (applyTarget target s).ovfCount = s.ovfCount ∧
    (applyTarget target s).prim = s.prim ∧ (applyTarget target s).resumed = s.resumed ∧
    (applyTarget target s).inbox = s.inbox ∧ (applyTarget target s).pace = s.pace ∧
    (applyTarget target s).trace = s.trace ∧
    (applyTarget target s).replies = s.replies ∧ (applyTarget target s).forwarded = s.forwarded ∧
    (applyTarget target s).reads = s.reads := by
  unfold applyTarget; split <;> simp

/-- retarget changes only: rate (R205). -/
@[simp] theorem retarget_frame (calcRate : Nat) (s : State) :
    (retarget calcRate s).par = s.par ∧ (retarget calcRate s).cyc = s.cyc ∧ (retarget calcRate s).req = s.req ∧
    (retarget calcRate s).result = s.result ∧ (retarget calcRate s).resultValid = s.resultValid ∧
    (retarget calcRate s).seq = s.seq ∧ (retarget calcRate s).pins = s.pins ∧
    (retarget calcRate s).resLeft = s.resLeft ∧ (retarget calcRate s).mute = s.mute ∧
    (retarget calcRate s).rt = s.rt ∧ (retarget calcRate s).shadow = s.shadow ∧ (retarget calcRate s).ring = s.ring ∧
    (retarget calcRate s).drain = s.drain ∧ (retarget calcRate s).ovf = s.ovf ∧
    (retarget calcRate s).ovfCount = s.ovfCount ∧ (retarget calcRate s).prim = s.prim ∧
    (retarget calcRate s).resumed = s.resumed ∧ (retarget calcRate s).inbox = s.inbox ∧
    (retarget calcRate s).pace = s.pace ∧
    (retarget calcRate s).trace = s.trace ∧ (retarget calcRate s).replies = s.replies ∧
    (retarget calcRate s).forwarded = s.forwarded ∧ (retarget calcRate s).reads = s.reads := by
  unfold retarget; split <;> simp

/-- emergency changes only: rate (R211). -/
@[simp] theorem emergency_frame (s : State) :
    (emergency s).par = s.par ∧ (emergency s).cyc = s.cyc ∧ (emergency s).req = s.req ∧
    (emergency s).result = s.result ∧ (emergency s).resultValid = s.resultValid ∧ (emergency s).seq = s.seq ∧
    (emergency s).pins = s.pins ∧ (emergency s).resLeft = s.resLeft ∧ (emergency s).mute = s.mute ∧
    (emergency s).rt = s.rt ∧ (emergency s).shadow = s.shadow ∧ (emergency s).ring = s.ring ∧
    (emergency s).drain = s.drain ∧ (emergency s).ovf = s.ovf ∧ (emergency s).ovfCount = s.ovfCount ∧
    (emergency s).prim = s.prim ∧ (emergency s).resumed = s.resumed ∧ (emergency s).inbox = s.inbox ∧
    (emergency s).pace = s.pace ∧
    (emergency s).trace = s.trace ∧ (emergency s).replies = s.replies ∧ (emergency s).forwarded = s.forwarded ∧
    (emergency s).reads = s.reads := by
  simp [emergency]

/-- adjustRate changes only: ring drain rate (R205). -/
@[simp] theorem adjustRate_frame (calcRate : Nat) (s : State) :
    (adjustRate calcRate s).par = s.par ∧ (adjustRate calcRate s).cyc = s.cyc ∧ (adjustRate calcRate s).req = s.req ∧
    (adjustRate calcRate s).result = s.result ∧ (adjustRate calcRate s).resultValid = s.resultValid ∧
    (adjustRate calcRate s).seq = s.seq ∧ (adjustRate calcRate s).pins = s.pins ∧
    (adjustRate calcRate s).resLeft = s.resLeft ∧ (adjustRate calcRate s).mute = s.mute ∧
    (adjustRate calcRate s).rt = s.rt ∧ (adjustRate calcRate s).shadow = s.shadow ∧
    (adjustRate calcRate s).ovf = s.ovf ∧ (adjustRate calcRate s).ovfCount = s.ovfCount ∧
    (adjustRate calcRate s).prim = s.prim ∧ (adjustRate calcRate s).resumed = s.resumed ∧
    (adjustRate calcRate s).inbox = s.inbox ∧ (adjustRate calcRate s).pace = s.pace ∧
    (adjustRate calcRate s).trace = s.trace ∧
    (adjustRate calcRate s).replies = s.replies ∧ (adjustRate calcRate s).forwarded = s.forwarded ∧
    (adjustRate calcRate s).reads = s.reads := by
  unfold adjustRate; split
  · split <;> simp
  · simp

/-- noteChip changes only: rate (R202). -/
@[simp] theorem noteChip_frame (k : BitVec 2) (s : State) :
    (noteChip k s).par = s.par ∧ (noteChip k s).cyc = s.cyc ∧ (noteChip k s).req = s.req ∧
    (noteChip k s).result = s.result ∧ (noteChip k s).resultValid = s.resultValid ∧ (noteChip k s).seq = s.seq ∧
    (noteChip k s).pins = s.pins ∧ (noteChip k s).resLeft = s.resLeft ∧ (noteChip k s).mute = s.mute ∧
    (noteChip k s).rt = s.rt ∧ (noteChip k s).shadow = s.shadow ∧ (noteChip k s).ring = s.ring ∧
    (noteChip k s).drain = s.drain ∧ (noteChip k s).ovf = s.ovf ∧ (noteChip k s).ovfCount = s.ovfCount ∧
    (noteChip k s).prim = s.prim ∧ (noteChip k s).resumed = s.resumed ∧ (noteChip k s).inbox = s.inbox ∧
    (noteChip k s).pace = s.pace ∧
    (noteChip k s).trace = s.trace ∧ (noteChip k s).replies = s.replies ∧ (noteChip k s).forwarded = s.forwarded ∧
    (noteChip k s).reads = s.reads := by
  simp [noteChip]

/-- ageEstimate changes only: rate (R202). -/
@[simp] theorem ageEstimate_frame (s : State) :
    (ageEstimate s).par = s.par ∧ (ageEstimate s).cyc = s.cyc ∧ (ageEstimate s).req = s.req ∧
    (ageEstimate s).result = s.result ∧ (ageEstimate s).resultValid = s.resultValid ∧ (ageEstimate s).seq = s.seq ∧
    (ageEstimate s).pins = s.pins ∧ (ageEstimate s).resLeft = s.resLeft ∧ (ageEstimate s).mute = s.mute ∧
    (ageEstimate s).rt = s.rt ∧ (ageEstimate s).shadow = s.shadow ∧ (ageEstimate s).ring = s.ring ∧
    (ageEstimate s).drain = s.drain ∧ (ageEstimate s).ovf = s.ovf ∧ (ageEstimate s).ovfCount = s.ovfCount ∧
    (ageEstimate s).prim = s.prim ∧ (ageEstimate s).resumed = s.resumed ∧ (ageEstimate s).inbox = s.inbox ∧
    (ageEstimate s).pace = s.pace ∧
    (ageEstimate s).trace = s.trace ∧ (ageEstimate s).replies = s.replies ∧ (ageEstimate s).forwarded = s.forwarded ∧
    (ageEstimate s).reads = s.reads := by
  simp [ageEstimate]

/-- noteArrival changes only: ring drain rate (R201). -/
@[simp] theorem noteArrival_frame (s : State) :
    (noteArrival s).par = s.par ∧ (noteArrival s).cyc = s.cyc ∧ (noteArrival s).req = s.req ∧
    (noteArrival s).result = s.result ∧ (noteArrival s).resultValid = s.resultValid ∧ (noteArrival s).seq = s.seq ∧
    (noteArrival s).pins = s.pins ∧ (noteArrival s).resLeft = s.resLeft ∧ (noteArrival s).mute = s.mute ∧
    (noteArrival s).rt = s.rt ∧ (noteArrival s).shadow = s.shadow ∧ (noteArrival s).ovf = s.ovf ∧
    (noteArrival s).ovfCount = s.ovfCount ∧ (noteArrival s).prim = s.prim ∧ (noteArrival s).resumed = s.resumed ∧
    (noteArrival s).inbox = s.inbox ∧ (noteArrival s).pace = s.pace ∧ (noteArrival s).trace = s.trace ∧
    (noteArrival s).replies = s.replies ∧
    (noteArrival s).forwarded = s.forwarded ∧ (noteArrival s).reads = s.reads := by
  unfold noteArrival; dsimp only; split <;> simp

/-- newFrame changes only: ring drain rate (R200). -/
@[simp] theorem newFrame_frame (s : State) :
    (newFrame s).par = s.par ∧ (newFrame s).cyc = s.cyc ∧ (newFrame s).req = s.req ∧ (newFrame s).result = s.result ∧
    (newFrame s).resultValid = s.resultValid ∧ (newFrame s).seq = s.seq ∧ (newFrame s).pins = s.pins ∧
    (newFrame s).resLeft = s.resLeft ∧ (newFrame s).mute = s.mute ∧ (newFrame s).rt = s.rt ∧
    (newFrame s).shadow = s.shadow ∧ (newFrame s).ovf = s.ovf ∧ (newFrame s).ovfCount = s.ovfCount ∧
    (newFrame s).prim = s.prim ∧ (newFrame s).resumed = s.resumed ∧ (newFrame s).inbox = s.inbox ∧
    (newFrame s).pace = s.pace ∧
    (newFrame s).trace = s.trace ∧ (newFrame s).replies = s.replies ∧ (newFrame s).forwarded = s.forwarded ∧
    (newFrame s).reads = s.reads := by
  simp [newFrame, trackArrival]

/-- takeFrame changes only: ring drain rate (R200). -/
@[simp] theorem takeFrame_frame (k : BitVec 2) (s : State) :
    (takeFrame k s).par = s.par ∧ (takeFrame k s).cyc = s.cyc ∧ (takeFrame k s).req = s.req ∧
    (takeFrame k s).result = s.result ∧ (takeFrame k s).resultValid = s.resultValid ∧ (takeFrame k s).seq = s.seq ∧
    (takeFrame k s).pins = s.pins ∧ (takeFrame k s).resLeft = s.resLeft ∧ (takeFrame k s).mute = s.mute ∧
    (takeFrame k s).rt = s.rt ∧ (takeFrame k s).shadow = s.shadow ∧ (takeFrame k s).ovf = s.ovf ∧
    (takeFrame k s).ovfCount = s.ovfCount ∧ (takeFrame k s).prim = s.prim ∧ (takeFrame k s).resumed = s.resumed ∧
    (takeFrame k s).inbox = s.inbox ∧ (takeFrame k s).pace = s.pace ∧ (takeFrame k s).trace = s.trace ∧
    (takeFrame k s).replies = s.replies ∧
    (takeFrame k s).forwarded = s.forwarded ∧ (takeFrame k s).reads = s.reads := by
  unfold takeFrame; split <;> simp

/-- setBaseRate changes only: rate (R204). -/
@[simp] theorem setBaseRate_frame (r : Ticks) (s : State) :
    (setBaseRate r s).par = s.par ∧ (setBaseRate r s).cyc = s.cyc ∧ (setBaseRate r s).req = s.req ∧
    (setBaseRate r s).result = s.result ∧ (setBaseRate r s).resultValid = s.resultValid ∧
    (setBaseRate r s).seq = s.seq ∧ (setBaseRate r s).pins = s.pins ∧ (setBaseRate r s).resLeft = s.resLeft ∧
    (setBaseRate r s).mute = s.mute ∧ (setBaseRate r s).rt = s.rt ∧ (setBaseRate r s).shadow = s.shadow ∧
    (setBaseRate r s).ring = s.ring ∧ (setBaseRate r s).drain = s.drain ∧ (setBaseRate r s).ovf = s.ovf ∧
    (setBaseRate r s).ovfCount = s.ovfCount ∧ (setBaseRate r s).prim = s.prim ∧
    (setBaseRate r s).resumed = s.resumed ∧ (setBaseRate r s).inbox = s.inbox ∧ (setBaseRate r s).pace = s.pace ∧
    (setBaseRate r s).trace = s.trace ∧
    (setBaseRate r s).replies = s.replies ∧ (setBaseRate r s).forwarded = s.forwarded ∧
    (setBaseRate r s).reads = s.reads := by
  unfold setBaseRate; split <;> simp

/-- endService changes only: ring drain resumed (R236). -/
@[simp] theorem endService_frame (s : State) :
    (endService s).par = s.par ∧ (endService s).cyc = s.cyc ∧ (endService s).req = s.req ∧
    (endService s).result = s.result ∧ (endService s).resultValid = s.resultValid ∧ (endService s).seq = s.seq ∧
    (endService s).pins = s.pins ∧ (endService s).resLeft = s.resLeft ∧ (endService s).mute = s.mute ∧
    (endService s).rt = s.rt ∧ (endService s).shadow = s.shadow ∧ (endService s).rate = s.rate ∧
    (endService s).ovf = s.ovf ∧ (endService s).ovfCount = s.ovfCount ∧ (endService s).prim = s.prim ∧
    (endService s).inbox = s.inbox ∧ (endService s).pace = s.pace ∧ (endService s).trace = s.trace ∧
    (endService s).replies = s.replies ∧
    (endService s).forwarded = s.forwarded ∧ (endService s).reads = s.reads := by
  unfold endService; dsimp only; split
  · simp
  · split <;> simp

/-- startService changes only: ring drain resumed (R235). -/
@[simp] theorem startService_frame (s : State) :
    (startService s).par = s.par ∧ (startService s).cyc = s.cyc ∧ (startService s).req = s.req ∧
    (startService s).result = s.result ∧ (startService s).resultValid = s.resultValid ∧ (startService s).seq = s.seq ∧
    (startService s).pins = s.pins ∧ (startService s).resLeft = s.resLeft ∧ (startService s).mute = s.mute ∧
    (startService s).rt = s.rt ∧ (startService s).shadow = s.shadow ∧ (startService s).rate = s.rate ∧
    (startService s).ovf = s.ovf ∧ (startService s).ovfCount = s.ovfCount ∧ (startService s).prim = s.prim ∧
    (startService s).inbox = s.inbox ∧ (startService s).pace = s.pace ∧ (startService s).trace = s.trace ∧
    (startService s).replies = s.replies ∧
    (startService s).forwarded = s.forwarded ∧ (startService s).reads = s.reads := by
  unfold startService; dsimp only; split <;> simp

/-- deliverEntry changes only: req result resultValid seq pins shadow trace ring drain (R176). -/
@[simp] theorem deliverEntry_frame (register value : Byte) (delay : Cycles) (s : State) :
    (deliverEntry register value delay s).par = s.par ∧ (deliverEntry register value delay s).cyc = s.cyc ∧
    (deliverEntry register value delay s).resLeft = s.resLeft ∧ (deliverEntry register value delay s).mute = s.mute ∧
    (deliverEntry register value delay s).rt = s.rt ∧ (deliverEntry register value delay s).rate = s.rate ∧
    (deliverEntry register value delay s).ovf = s.ovf ∧ (deliverEntry register value delay s).ovfCount = s.ovfCount ∧
    (deliverEntry register value delay s).prim = s.prim ∧ (deliverEntry register value delay s).resumed = s.resumed ∧
    (deliverEntry register value delay s).inbox = s.inbox ∧ (deliverEntry register value delay s).pace = s.pace ∧
    (deliverEntry register value delay s).replies = s.replies ∧
    (deliverEntry register value delay s).forwarded = s.forwarded ∧
    (deliverEntry register value delay s).reads = s.reads := by
  simp [deliverEntry]

/-- issueNext changes only: req result resultValid seq pins shadow trace prim (R151). -/
@[simp] theorem issueNext_frame (s : State) :
    (issueNext s).par = s.par ∧ (issueNext s).cyc = s.cyc ∧ (issueNext s).resLeft = s.resLeft ∧
    (issueNext s).mute = s.mute ∧ (issueNext s).rt = s.rt ∧ (issueNext s).ring = s.ring ∧
    (issueNext s).drain = s.drain ∧ (issueNext s).rate = s.rate ∧ (issueNext s).ovf = s.ovf ∧
    (issueNext s).ovfCount = s.ovfCount ∧ (issueNext s).resumed = s.resumed ∧ (issueNext s).inbox = s.inbox ∧
    (issueNext s).pace = s.pace ∧
    (issueNext s).replies = s.replies ∧ (issueNext s).forwarded = s.forwarded ∧ (issueNext s).reads = s.reads := by
  unfold issueNext; split <;> simp

/-- startBurst changes only: req result resultValid seq pins shadow trace prim (R150). -/
@[simp] theorem startBurst_frame (ops : List BusRequest) (s : State) :
    (startBurst ops s).par = s.par ∧ (startBurst ops s).cyc = s.cyc ∧ (startBurst ops s).resLeft = s.resLeft ∧
    (startBurst ops s).mute = s.mute ∧ (startBurst ops s).rt = s.rt ∧ (startBurst ops s).ring = s.ring ∧
    (startBurst ops s).drain = s.drain ∧ (startBurst ops s).rate = s.rate ∧ (startBurst ops s).ovf = s.ovf ∧
    (startBurst ops s).ovfCount = s.ovfCount ∧ (startBurst ops s).resumed = s.resumed ∧
    (startBurst ops s).inbox = s.inbox ∧ (startBurst ops s).pace = s.pace ∧ (startBurst ops s).replies = s.replies ∧
    (startBurst ops s).forwarded = s.forwarded ∧ (startBurst ops s).reads = s.reads := by
  simp [startBurst]

/-- startRead changes only: req result resultValid seq pins shadow trace prim (R152). -/
@[simp] theorem startRead_frame (address : Option Byte) (s : State) :
    (startRead address s).par = s.par ∧ (startRead address s).cyc = s.cyc ∧
    (startRead address s).resLeft = s.resLeft ∧ (startRead address s).mute = s.mute ∧
    (startRead address s).rt = s.rt ∧ (startRead address s).ring = s.ring ∧ (startRead address s).drain = s.drain ∧
    (startRead address s).rate = s.rate ∧ (startRead address s).ovf = s.ovf ∧
    (startRead address s).ovfCount = s.ovfCount ∧ (startRead address s).resumed = s.resumed ∧
    (startRead address s).inbox = s.inbox ∧ (startRead address s).pace = s.pace ∧
    (startRead address s).replies = s.replies ∧
    (startRead address s).forwarded = s.forwarded ∧ (startRead address s).reads = s.reads := by
  unfold startRead; split <;> simp

end Sys2Proof.Machine
end

