-- ==== Sys2Proof/Laws/Memory.lean ====
section
/-! SUPPORT. The byte memories: reading after writing, and the canonical form kept by every operation. -/

namespace Sys2Proof.Machine

/-! ## Listed bytes -/

@[simp] theorem Memory.lookup_nil (a : Nat) : Memory.lookup [] a = none := rfl

@[simp] theorem Memory.lookup_insert_same (m : Memory) (a : Nat) (v : Byte) :
    Memory.lookup (Memory.insert m a v) a = some v := by
  induction m with
  | nil => simp [Memory.insert, Memory.lookup]
  | cons c m ih =>
    unfold Memory.insert
    split
    · simp [Memory.lookup]
    · split
      · simp [Memory.lookup]
      · simp_all [Memory.lookup]

theorem Memory.lookup_insert_other (m : Memory) {a b : Nat} (v : Byte) (h : b ≠ a) :
    Memory.lookup (Memory.insert m a v) b = Memory.lookup m b := by
  induction m with
  | nil => simp [Memory.insert, Memory.lookup, h]
  | cons c m ih =>
    unfold Memory.insert
    split
    · simp [Memory.lookup, h]
    · split
      · simp_all [Memory.lookup]
      · simp only [Memory.lookup, ih]

theorem Memory.lookup_erase_other (m : Memory) {a b : Nat} (h : b ≠ a) :
    Memory.lookup (Memory.erase m a) b = Memory.lookup m b := by
  induction m with
  | nil => rfl
  | cons c m ih =>
    unfold Memory.erase
    split
    · simp_all [Memory.lookup]
    · simp only [Memory.lookup, ih]

/-- An address below every listed one is not listed. -/
theorem Memory.lookup_none_of_lt {m : Memory} {a : Nat} (h : ∀ d ∈ m, a < d.1) : Memory.lookup m a = none := by
  induction m with
  | nil => rfl
  | cons c m ih =>
    have hc : a < c.1 := h c (by simp)
    simp only [Memory.lookup, if_neg (Nat.ne_of_lt hc)]
    exact ih fun d hd => h d (by simp [hd])

/-- The canonical form of a listed memory, as its head and its rest. -/
theorem Memory.wf_cons {c : Host.Cell} {m : Memory} :
    Memory.wf (c :: m) = true ↔ (∀ d ∈ m, c.1 < d.1) ∧ Memory.wf m = true := by
  simp [Memory.wf, List.all_eq_true]

theorem Memory.lookup_erase_same {m : Memory} (hm : Memory.wf m = true) (a : Nat) :
    Memory.lookup (Memory.erase m a) a = none := by
  induction m with
  | nil => rfl
  | cons c m ih =>
    obtain ⟨hlt, hwf⟩ := Memory.wf_cons.1 hm
    unfold Memory.erase
    split
    · rename_i h
      subst h
      exact Memory.lookup_none_of_lt hlt
    · rename_i h
      simp only [Memory.lookup, if_neg h]
      exact ih hwf

/-- Every cell of a memory after an insertion is the new one or an old one. -/
theorem Memory.mem_insert {m : Memory} {a : Nat} {v : Byte} {d : Host.Cell} (h : d ∈ Memory.insert m a v) :
    d = (a, v) ∨ d ∈ m := by
  induction m with
  | nil => simpa [Memory.insert] using h
  | cons c m ih =>
    unfold Memory.insert at h
    split at h
    · simpa using h
    · split at h
      · rcases List.mem_cons.1 h with h | h <;> simp [h]
      · rcases List.mem_cons.1 h with h | h
        · simp [h]
        · rcases ih h with h | h <;> simp [h]

theorem Memory.mem_erase {m : Memory} {a : Nat} {d : Host.Cell} (h : d ∈ Memory.erase m a) : d ∈ m := by
  induction m with
  | nil => exact h
  | cons c m ih =>
    unfold Memory.erase at h
    split at h
    · simp [h]
    · rcases List.mem_cons.1 h with h | h
      · simp [h]
      · simp [ih h]

theorem Memory.wf_insert {m : Memory} (hm : Memory.wf m = true) (a : Nat) (v : Byte) :
    Memory.wf (Memory.insert m a v) = true := by
  induction m with
  | nil => rfl
  | cons c m ih =>
    obtain ⟨hlt, hwf⟩ := Memory.wf_cons.1 hm
    unfold Memory.insert
    split
    · rename_i h
      refine Memory.wf_cons.2 ⟨fun d hd => ?_, hm⟩
      rcases List.mem_cons.1 hd with rfl | hd
      · exact h
      · exact h.trans (hlt d hd)
    · split
      · rename_i h
        subst h
        exact Memory.wf_cons.2 ⟨hlt, hwf⟩
      · rename_i h₁ h₂
        refine Memory.wf_cons.2 ⟨fun d hd => ?_, ih hwf⟩
        rcases Memory.mem_insert hd with rfl | hd
        · exact lt_of_le_of_ne (Nat.le_of_not_lt h₁) (Ne.symm h₂)
        · exact hlt d hd

theorem Memory.wf_erase {m : Memory} (hm : Memory.wf m = true) (a : Nat) : Memory.wf (Memory.erase m a) = true := by
  induction m with
  | nil => rfl
  | cons c m ih =>
    obtain ⟨hlt, hwf⟩ := Memory.wf_cons.1 hm
    unfold Memory.erase
    split
    · exact hwf
    · exact Memory.wf_cons.2 ⟨fun d hd => hlt d (Memory.mem_erase hd), ih hwf⟩

/-! ## The shadow memory (R31, R67) -/

/-- The canonical form of `shadow`, cell by cell. -/
theorem shadowWf_iff {m : Memory} :
    shadowWf m = true ↔ Memory.wf m = true ∧ ∀ c ∈ m, c.1 < Config.windowBytes ∧ c.2 ≠ 0 := by
  simp [shadowWf, List.all_eq_true]

@[simp] theorem shadowWf_nil : shadowWf [] = true := rfl

theorem shadowByte_store_same {m : Memory} (hm : shadowWf m = true) (i : BitVec 7) (v : Byte) :
    shadowByte (shadowStore m i v) i = v := by
  unfold shadowByte shadowStore
  split
  · rename_i h
    simp [Memory.lookup_erase_same (shadowWf_iff.1 hm).1, h]
  · simp

theorem shadowByte_store_other (m : Memory) {i j : BitVec 7} (v : Byte) (h : j ≠ i) :
    shadowByte (shadowStore m i v) j = shadowByte m j := by
  have hij : j.toNat ≠ i.toNat := fun e => h (BitVec.eq_of_toNat_eq e)
  unfold shadowByte shadowStore
  split
  · rw [Memory.lookup_erase_other m hij]
  · rw [Memory.lookup_insert_other m v hij]

/-- Storing into `shadow` keeps its canonical form. -/
theorem shadowWf_store {m : Memory} (hm : shadowWf m = true) (i : BitVec 7) (v : Byte) :
    shadowWf (shadowStore m i v) = true := by
  obtain ⟨hwf, hall⟩ := shadowWf_iff.1 hm
  unfold shadowStore
  split
  · exact shadowWf_iff.2 ⟨Memory.wf_erase hwf _, fun c hc => hall c (Memory.mem_erase hc)⟩
  · rename_i hv
    refine shadowWf_iff.2 ⟨Memory.wf_insert hwf _ _, fun c hc => ?_⟩
    rcases Memory.mem_insert hc with rfl | hc
    · exact ⟨i.isLt, hv⟩
    · exact hall c hc

/-! ## The ring store (R32, R63) -/

/-- The canonical form of `ring.mem`, cell by cell. -/
theorem ringMemWf_iff {m : Memory} :
    ringMemWf m = true ↔ Memory.wf m = true ∧ ∀ c ∈ m, c.1 < Config.ringMaxBytes := by
  simp [ringMemWf, List.all_eq_true]

@[simp] theorem ringMemWf_nil : ringMemWf [] = true := rfl

@[simp] theorem ringByte_store_same (r : Ring) (o : Nat) (v : Byte) : ringByte (ringStore r o v) o = v := by
  simp [ringByte, ringStore]

theorem ringByte_store_other (r : Ring) {o p : Nat} (v : Byte) (h : p ≠ o) :
    ringByte (ringStore r o v) p = ringByte r p := by
  simp [ringByte, ringStore, Memory.lookup_insert_other r.mem v h]

/-- Storing into the ring keeps its canonical form. -/
theorem ringMemWf_store {r : Ring} (hr : ringMemWf r.mem = true) {o : Nat} (ho : o < Config.ringMaxBytes) (v : Byte) :
    ringMemWf (ringStore r o v).mem = true := by
  obtain ⟨hwf, hall⟩ := ringMemWf_iff.1 hr
  refine ringMemWf_iff.2 ⟨Memory.wf_insert hwf _ _, fun c hc => ?_⟩
  rcases Memory.mem_insert hc with rfl | hc
  · exact ho
  · exact hall c hc

/-- A store changes nothing of the ring but its bytes. -/
@[simp] theorem ringStore_frame (r : Ring) (o : Nat) (v : Byte) :
    (ringStore r o v).epoch = r.epoch ∧ (ringStore r o v).read = r.read ∧ (ringStore r o v).write = r.write ∧
    (ringStore r o v).size = r.size := by
  simp [ringStore]

@[simp] theorem storeEntry_frame (r : Ring) (o : Nat) (register value : Byte) (delay : Cycles) :
    (storeEntry r o register value delay).epoch = r.epoch ∧ (storeEntry r o register value delay).read = r.read ∧
    (storeEntry r o register value delay).write = r.write ∧
    (storeEntry r o register value delay).size = r.size := by
  simp [storeEntry]

/-- The four bytes of a stored entry (R63). -/
theorem ringByte_storeEntry (r : Ring) (o : Nat) (register value : Byte) (delay : Cycles) :
    ringByte (storeEntry r o register value delay) o = register ∧
    ringByte (storeEntry r o register value delay) (o + 1) = value ∧
    ringByte (storeEntry r o register value delay) (o + 2) = delayHi delay ∧
    ringByte (storeEntry r o register value delay) (o + 3) = delayLo delay := by
  unfold storeEntry
  refine ⟨?_, ?_, ?_, ?_⟩
  · rw [ringByte_store_other _ _ (by omega), ringByte_store_other _ _ (by omega),
      ringByte_store_other _ _ (by omega), ringByte_store_same]
  · rw [ringByte_store_other _ _ (by omega), ringByte_store_other _ _ (by omega), ringByte_store_same]
  · rw [ringByte_store_other _ _ (by omega), ringByte_store_same]
  · rw [ringByte_store_same]

/-- Every byte outside the stored entry stays as it was. -/
theorem ringByte_storeEntry_other (r : Ring) {o p : Nat} (register value : Byte) (delay : Cycles)
    (h : p < o ∨ o + 4 ≤ p) : ringByte (storeEntry r o register value delay) p = ringByte r p := by
  unfold storeEntry
  rw [ringByte_store_other _ _ (by omega), ringByte_store_other _ _ (by omega), ringByte_store_other _ _ (by omega),
    ringByte_store_other _ _ (by omega)]

theorem ringMemWf_storeEntry {r : Ring} (hr : ringMemWf r.mem = true) {o : Nat} (ho : o + 3 < Config.ringMaxBytes)
    (register value : Byte) (delay : Cycles) :
    ringMemWf (storeEntry r o register value delay).mem = true := by
  unfold storeEntry
  exact ringMemWf_store (ringMemWf_store (ringMemWf_store (ringMemWf_store hr (by omega) _) (by omega) _)
    (by omega) _) ho _

/-- Reset's memories have the canonical form. -/
theorem reset_memories_wf : shadowWf State.reset.shadow = true ∧ ringMemWf State.reset.ring.mem = true :=
  ⟨rfl, rfl⟩

/-! ## The copy loop of `Grow` (R174) -/

@[simp] theorem relocate_frame (size newSize j n : Nat) (r : Ring) :
    (relocate size newSize j n r).epoch = r.epoch ∧ (relocate size newSize j n r).read = r.read ∧
    (relocate size newSize j n r).write = r.write ∧ (relocate size newSize j n r).size = r.size := by
  induction n generalizing j r with
  | zero => simp [relocate]
  | succ n ih => simp [relocate, ih]

/-- A byte no copy goes to stays as it was. -/
theorem ringByte_relocate_other {size newSize j n : Nat} {r : Ring} {p : Nat}
    (h : ∀ k, k < n → (size + (j + k)) % newSize ≠ p) :
    ringByte (relocate size newSize j n r) p = ringByte r p := by
  induction n generalizing j r with
  | zero => rfl
  | succ n ih =>
    rw [relocate, ih (fun k hk => by have := h (k + 1) (by omega); rwa [show j + 1 + k = j + (k + 1) by omega])]
    exact ringByte_store_other r _ (Ne.symm (h 0 (by omega)))

theorem ringMemWf_relocate {size newSize : Nat} (h0 : 0 < newSize) (hmax : newSize ≤ Config.ringMaxBytes) (j n : Nat)
    {r : Ring} (hr : ringMemWf r.mem = true) : ringMemWf (relocate size newSize j n r).mem = true := by
  induction n generalizing j r with
  | zero => exact hr
  | succ n ih => exact ih _ (ringMemWf_store hr ((Nat.mod_lt _ h0).trans_le hmax) _)

end Sys2Proof.Machine
end

