-- ==== Sys2Proof/Laws/State.lean ====
section
/-! SUPPORT. One lemma per field of the state per named update, true by rfl. -/

namespace Sys2Proof.Machine

/-! ### setMask: `irq_mask <- b` (R70) -/

@[simp] theorem setMask_par (b : Bool) (s : State) : (setMask b s).par = s.par := rfl
@[simp] theorem setMask_cyc (b : Bool) (s : State) : (setMask b s).cyc = s.cyc := rfl
@[simp] theorem setMask_req (b : Bool) (s : State) : (setMask b s).req = s.req := rfl
@[simp] theorem setMask_result (b : Bool) (s : State) : (setMask b s).result = s.result := rfl
@[simp] theorem setMask_resultValid (b : Bool) (s : State) : (setMask b s).resultValid = s.resultValid := rfl
@[simp] theorem setMask_seq (b : Bool) (s : State) : (setMask b s).seq = s.seq := rfl
@[simp] theorem setMask_pins (b : Bool) (s : State) : (setMask b s).pins = s.pins := rfl
@[simp] theorem setMask_resLeft (b : Bool) (s : State) : (setMask b s).resLeft = s.resLeft := rfl
@[simp] theorem setMask_mute (b : Bool) (s : State) : (setMask b s).mute = s.mute := rfl
@[simp] theorem setMask_rt (b : Bool) (s : State) : (setMask b s).rt = s.rt := rfl
@[simp] theorem setMask_shadow (b : Bool) (s : State) : (setMask b s).shadow = s.shadow := rfl
@[simp] theorem setMask_ring (b : Bool) (s : State) : (setMask b s).ring = s.ring := rfl
@[simp] theorem setMask_drain (b : Bool) (s : State) : (setMask b s).drain = { s.drain with irqMask := b } := rfl
@[simp] theorem setMask_rate (b : Bool) (s : State) : (setMask b s).rate = s.rate := rfl
@[simp] theorem setMask_ovf (b : Bool) (s : State) : (setMask b s).ovf = s.ovf := rfl
@[simp] theorem setMask_ovfCount (b : Bool) (s : State) : (setMask b s).ovfCount = s.ovfCount := rfl
@[simp] theorem setMask_prim (b : Bool) (s : State) : (setMask b s).prim = s.prim := rfl
@[simp] theorem setMask_resumed (b : Bool) (s : State) : (setMask b s).resumed = s.resumed := rfl
@[simp] theorem setMask_inbox (b : Bool) (s : State) : (setMask b s).inbox = s.inbox := rfl
@[simp] theorem setMask_pace (b : Bool) (s : State) : (setMask b s).pace = s.pace := rfl
@[simp] theorem setMask_trace (b : Bool) (s : State) : (setMask b s).trace = s.trace := rfl
@[simp] theorem setMask_replies (b : Bool) (s : State) : (setMask b s).replies = s.replies := rfl
@[simp] theorem setMask_forwarded (b : Bool) (s : State) : (setMask b s).forwarded = s.forwarded := rfl
@[simp] theorem setMask_reads (b : Bool) (s : State) : (setMask b s).reads = s.reads := rfl

/-! ### recordDrop: the flags of a dropped push (R172) -/

@[simp] theorem recordDrop_par (s : State) : (recordDrop s).par = s.par := rfl
@[simp] theorem recordDrop_cyc (s : State) : (recordDrop s).cyc = s.cyc := rfl
@[simp] theorem recordDrop_req (s : State) : (recordDrop s).req = s.req := rfl
@[simp] theorem recordDrop_result (s : State) : (recordDrop s).result = s.result := rfl
@[simp] theorem recordDrop_resultValid (s : State) : (recordDrop s).resultValid = s.resultValid := rfl
@[simp] theorem recordDrop_seq (s : State) : (recordDrop s).seq = s.seq := rfl
@[simp] theorem recordDrop_pins (s : State) : (recordDrop s).pins = s.pins := rfl
@[simp] theorem recordDrop_resLeft (s : State) : (recordDrop s).resLeft = s.resLeft := rfl
@[simp] theorem recordDrop_mute (s : State) : (recordDrop s).mute = s.mute := rfl
@[simp] theorem recordDrop_rt (s : State) : (recordDrop s).rt = s.rt := rfl
@[simp] theorem recordDrop_shadow (s : State) : (recordDrop s).shadow = s.shadow := rfl
@[simp] theorem recordDrop_ring (s : State) : (recordDrop s).ring = s.ring := rfl
@[simp] theorem recordDrop_drain (s : State) : (recordDrop s).drain = s.drain := rfl
@[simp] theorem recordDrop_rate (s : State) : (recordDrop s).rate = s.rate := rfl
@[simp] theorem recordDrop_ovf (s : State) : (recordDrop s).ovf = true := rfl
@[simp] theorem recordDrop_ovfCount (s : State) : (recordDrop s).ovfCount = saturatingSucc s.ovfCount := rfl
@[simp] theorem recordDrop_prim (s : State) : (recordDrop s).prim = s.prim := rfl
@[simp] theorem recordDrop_resumed (s : State) : (recordDrop s).resumed = s.resumed := rfl
@[simp] theorem recordDrop_inbox (s : State) : (recordDrop s).inbox = s.inbox := rfl
@[simp] theorem recordDrop_pace (s : State) : (recordDrop s).pace = s.pace := rfl
@[simp] theorem recordDrop_trace (s : State) : (recordDrop s).trace = s.trace := rfl
@[simp] theorem recordDrop_replies (s : State) : (recordDrop s).replies = s.replies := rfl
@[simp] theorem recordDrop_forwarded (s : State) : (recordDrop s).forwarded = s.forwarded := rfl
@[simp] theorem recordDrop_reads (s : State) : (recordDrop s).reads = s.reads := rfl

/-! ### pulseResN: a pulse on `RES_n` (R244) -/

@[simp] theorem pulseResN_par (s : State) : (pulseResN s).par = s.par := rfl
@[simp] theorem pulseResN_cyc (s : State) : (pulseResN s).cyc = s.cyc := rfl
@[simp] theorem pulseResN_req (s : State) : (pulseResN s).req = s.req := rfl
@[simp] theorem pulseResN_result (s : State) : (pulseResN s).result = s.result := rfl
@[simp] theorem pulseResN_resultValid (s : State) : (pulseResN s).resultValid = s.resultValid := rfl
@[simp] theorem pulseResN_seq (s : State) : (pulseResN s).seq = s.seq := rfl
@[simp] theorem pulseResN_pins (s : State) : (pulseResN s).pins = s.pins := rfl
@[simp] theorem pulseResN_resLeft (s : State) : (pulseResN s).resLeft = s.par.resPulseTicks := rfl
@[simp] theorem pulseResN_mute (s : State) : (pulseResN s).mute = s.mute := rfl
@[simp] theorem pulseResN_rt (s : State) : (pulseResN s).rt = s.rt := rfl
@[simp] theorem pulseResN_shadow (s : State) : (pulseResN s).shadow = s.shadow := rfl
@[simp] theorem pulseResN_ring (s : State) : (pulseResN s).ring = s.ring := rfl
@[simp] theorem pulseResN_drain (s : State) : (pulseResN s).drain = s.drain := rfl
@[simp] theorem pulseResN_rate (s : State) : (pulseResN s).rate = s.rate := rfl
@[simp] theorem pulseResN_ovf (s : State) : (pulseResN s).ovf = s.ovf := rfl
@[simp] theorem pulseResN_ovfCount (s : State) : (pulseResN s).ovfCount = s.ovfCount := rfl
@[simp] theorem pulseResN_prim (s : State) : (pulseResN s).prim = s.prim := rfl
@[simp] theorem pulseResN_resumed (s : State) : (pulseResN s).resumed = s.resumed := rfl
@[simp] theorem pulseResN_inbox (s : State) : (pulseResN s).inbox = s.inbox := rfl
@[simp] theorem pulseResN_pace (s : State) : (pulseResN s).pace = s.pace := rfl
@[simp] theorem pulseResN_trace (s : State) : (pulseResN s).trace = s.trace := rfl
@[simp] theorem pulseResN_replies (s : State) : (pulseResN s).replies = s.replies := rfl
@[simp] theorem pulseResN_forwarded (s : State) : (pulseResN s).forwarded = s.forwarded := rfl
@[simp] theorem pulseResN_reads (s : State) : (pulseResN s).reads = s.reads := rfl

/-! ### forward: handing over to the environment (R104) -/

@[simp] theorem forward_par (f : Forwarded) (s : State) : (forward f s).par = s.par := rfl
@[simp] theorem forward_cyc (f : Forwarded) (s : State) : (forward f s).cyc = s.cyc := rfl
@[simp] theorem forward_req (f : Forwarded) (s : State) : (forward f s).req = s.req := rfl
@[simp] theorem forward_result (f : Forwarded) (s : State) : (forward f s).result = s.result := rfl
@[simp] theorem forward_resultValid (f : Forwarded) (s : State) : (forward f s).resultValid = s.resultValid := rfl
@[simp] theorem forward_seq (f : Forwarded) (s : State) : (forward f s).seq = s.seq := rfl
@[simp] theorem forward_pins (f : Forwarded) (s : State) : (forward f s).pins = s.pins := rfl
@[simp] theorem forward_resLeft (f : Forwarded) (s : State) : (forward f s).resLeft = s.resLeft := rfl
@[simp] theorem forward_mute (f : Forwarded) (s : State) : (forward f s).mute = s.mute := rfl
@[simp] theorem forward_rt (f : Forwarded) (s : State) : (forward f s).rt = s.rt := rfl
@[simp] theorem forward_shadow (f : Forwarded) (s : State) : (forward f s).shadow = s.shadow := rfl
@[simp] theorem forward_ring (f : Forwarded) (s : State) : (forward f s).ring = s.ring := rfl
@[simp] theorem forward_drain (f : Forwarded) (s : State) : (forward f s).drain = s.drain := rfl
@[simp] theorem forward_rate (f : Forwarded) (s : State) : (forward f s).rate = s.rate := rfl
@[simp] theorem forward_ovf (f : Forwarded) (s : State) : (forward f s).ovf = s.ovf := rfl
@[simp] theorem forward_ovfCount (f : Forwarded) (s : State) : (forward f s).ovfCount = s.ovfCount := rfl
@[simp] theorem forward_prim (f : Forwarded) (s : State) : (forward f s).prim = s.prim := rfl
@[simp] theorem forward_resumed (f : Forwarded) (s : State) : (forward f s).resumed = s.resumed := rfl
@[simp] theorem forward_inbox (f : Forwarded) (s : State) : (forward f s).inbox = s.inbox := rfl
@[simp] theorem forward_pace (f : Forwarded) (s : State) : (forward f s).pace = s.pace := rfl
@[simp] theorem forward_trace (f : Forwarded) (s : State) : (forward f s).trace = s.trace := rfl
@[simp] theorem forward_replies (f : Forwarded) (s : State) : (forward f s).replies = s.replies := rfl
@[simp] theorem forward_forwarded (f : Forwarded) (s : State) : (forward f s).forwarded = s.forwarded ++ [f] := rfl
@[simp] theorem forward_reads (f : Forwarded) (s : State) : (forward f s).reads = s.reads := rfl

/-! ### sendReply: the reply of a read (R152) -/

@[simp] theorem sendReply_par (s : State) : (sendReply s).par = s.par := rfl
@[simp] theorem sendReply_cyc (s : State) : (sendReply s).cyc = s.cyc := rfl
@[simp] theorem sendReply_req (s : State) : (sendReply s).req = s.req := rfl
@[simp] theorem sendReply_result (s : State) : (sendReply s).result = s.result := rfl
@[simp] theorem sendReply_resultValid (s : State) : (sendReply s).resultValid = s.resultValid := rfl
@[simp] theorem sendReply_seq (s : State) : (sendReply s).seq = s.seq := rfl
@[simp] theorem sendReply_pins (s : State) : (sendReply s).pins = s.pins := rfl
@[simp] theorem sendReply_resLeft (s : State) : (sendReply s).resLeft = s.resLeft := rfl
@[simp] theorem sendReply_mute (s : State) : (sendReply s).mute = s.mute := rfl
@[simp] theorem sendReply_rt (s : State) : (sendReply s).rt = s.rt := rfl
@[simp] theorem sendReply_shadow (s : State) : (sendReply s).shadow = s.shadow := rfl
@[simp] theorem sendReply_ring (s : State) : (sendReply s).ring = s.ring := rfl
@[simp] theorem sendReply_drain (s : State) : (sendReply s).drain = s.drain := rfl
@[simp] theorem sendReply_rate (s : State) : (sendReply s).rate = s.rate := rfl
@[simp] theorem sendReply_ovf (s : State) : (sendReply s).ovf = s.ovf := rfl
@[simp] theorem sendReply_ovfCount (s : State) : (sendReply s).ovfCount = s.ovfCount := rfl
@[simp] theorem sendReply_prim (s : State) : (sendReply s).prim = { s.prim with replyDue := false } := rfl
@[simp] theorem sendReply_resumed (s : State) : (sendReply s).resumed = s.resumed := rfl
@[simp] theorem sendReply_inbox (s : State) : (sendReply s).inbox = s.inbox := rfl
@[simp] theorem sendReply_pace (s : State) : (sendReply s).pace = s.pace := rfl
@[simp] theorem sendReply_trace (s : State) : (sendReply s).trace = s.trace := rfl
@[simp] theorem sendReply_replies (s : State) : (sendReply s).replies = s.replies ++ [s.result] := rfl
@[simp] theorem sendReply_forwarded (s : State) : (sendReply s).forwarded = s.forwarded := rfl
@[simp] theorem sendReply_reads (s : State) : (sendReply s).reads = s.reads := rfl

/-! ### countTick: step 1 of a boundary (R34, R234) -/

@[simp] theorem countTick_par (s : State) : (countTick s).par = s.par := rfl
@[simp] theorem countTick_cyc (s : State) : (countTick s).cyc = s.cyc + 1 := rfl
@[simp] theorem countTick_req (s : State) : (countTick s).req = s.req := rfl
@[simp] theorem countTick_result (s : State) : (countTick s).result = s.result := rfl
@[simp] theorem countTick_resultValid (s : State) : (countTick s).resultValid = s.resultValid := rfl
@[simp] theorem countTick_seq (s : State) : (countTick s).seq = s.seq := rfl
@[simp] theorem countTick_pins (s : State) : (countTick s).pins = s.pins := rfl
@[simp] theorem countTick_resLeft (s : State) : (countTick s).resLeft = s.resLeft - 1 := rfl
@[simp] theorem countTick_mute (s : State) : (countTick s).mute = s.mute := rfl
@[simp] theorem countTick_rt (s : State) : (countTick s).rt = s.rt := rfl
@[simp] theorem countTick_shadow (s : State) : (countTick s).shadow = s.shadow := rfl
@[simp] theorem countTick_ring (s : State) : (countTick s).ring = s.ring := rfl
@[simp] theorem countTick_drain (s : State) : (countTick s).drain = s.drain := rfl
@[simp] theorem countTick_rate (s : State) : (countTick s).rate = s.rate := rfl
@[simp] theorem countTick_ovf (s : State) : (countTick s).ovf = s.ovf := rfl
@[simp] theorem countTick_ovfCount (s : State) : (countTick s).ovfCount = s.ovfCount := rfl
@[simp] theorem countTick_prim (s : State) : (countTick s).prim = s.prim := rfl
@[simp] theorem countTick_resumed (s : State) : (countTick s).resumed = false := rfl
@[simp] theorem countTick_inbox (s : State) : (countTick s).inbox = elapse s.inbox := rfl
@[simp] theorem countTick_pace (s : State) : (countTick s).pace = paceTick s := rfl
@[simp] theorem countTick_trace (s : State) : (countTick s).trace = s.trace := rfl
@[simp] theorem countTick_replies (s : State) : (countTick s).replies = s.replies := rfl
@[simp] theorem countTick_forwarded (s : State) : (countTick s).forwarded = s.forwarded := rfl
@[simp] theorem countTick_reads (s : State) : (countTick s).reads = s.reads := rfl

/-! ### enterXfer: the start of a transfer (R127) -/

@[simp] theorem enterXfer_par (s : State) : (enterXfer s).par = s.par := rfl
@[simp] theorem enterXfer_cyc (s : State) : (enterXfer s).cyc = s.cyc := rfl
@[simp] theorem enterXfer_req (s : State) : (enterXfer s).req = s.req := rfl
@[simp] theorem enterXfer_result (s : State) : (enterXfer s).result = s.result := rfl
@[simp] theorem enterXfer_resultValid (s : State) : (enterXfer s).resultValid = s.resultValid := rfl
@[simp] theorem enterXfer_seq (s : State) : (enterXfer s).seq = { s.seq with phase := .xfer, xcnt := s.par.tXfer, tstart := s.cyc } := rfl
@[simp] theorem enterXfer_pins (s : State) : (enterXfer s).pins = Pins.ofSeq s.seq := rfl
@[simp] theorem enterXfer_resLeft (s : State) : (enterXfer s).resLeft = s.resLeft := rfl
@[simp] theorem enterXfer_mute (s : State) : (enterXfer s).mute = s.mute := rfl
@[simp] theorem enterXfer_rt (s : State) : (enterXfer s).rt = s.rt := rfl
@[simp] theorem enterXfer_shadow (s : State) : (enterXfer s).shadow = s.shadow := rfl
@[simp] theorem enterXfer_ring (s : State) : (enterXfer s).ring = s.ring := rfl
@[simp] theorem enterXfer_drain (s : State) : (enterXfer s).drain = s.drain := rfl
@[simp] theorem enterXfer_rate (s : State) : (enterXfer s).rate = s.rate := rfl
@[simp] theorem enterXfer_ovf (s : State) : (enterXfer s).ovf = s.ovf := rfl
@[simp] theorem enterXfer_ovfCount (s : State) : (enterXfer s).ovfCount = s.ovfCount := rfl
@[simp] theorem enterXfer_prim (s : State) : (enterXfer s).prim = s.prim := rfl
@[simp] theorem enterXfer_resumed (s : State) : (enterXfer s).resumed = s.resumed := rfl
@[simp] theorem enterXfer_inbox (s : State) : (enterXfer s).inbox = s.inbox := rfl
@[simp] theorem enterXfer_pace (s : State) : (enterXfer s).pace = s.pace := rfl
@[simp] theorem enterXfer_replies (s : State) : (enterXfer s).replies = s.replies := rfl
@[simp] theorem enterXfer_forwarded (s : State) : (enterXfer s).forwarded = s.forwarded := rfl
@[simp] theorem enterXfer_reads (s : State) : (enterXfer s).reads = s.reads := rfl

end Sys2Proof.Machine
end

