-- ==== Sys2Proof/Laws/Ops.lean ====
section
/-! SUPPORT. What each shared operation can do, said once: the lemmas to cite instead of unfolding it. -/

namespace Sys2Proof.Machine

/-! ## Derived signals -/

theorem busy_iff (s : State) : busy s = true ↔ s.seq.phase ≠ .idle := by simp [busy]

theorem quiet_iff (s : State) : quiet s = true ↔ s.seq.phase = .idle ∧ s.req.valid = false := by
  simp [quiet, busy]

theorem midCommand_iff (s : State) : midCommand s = false ↔ s.prim.todo = [] ∧ s.prim.replyDue = false := by
  simp [midCommand]

/-- The six conditions of R178. -/
theorem gateOpen_iff (s : State) :
    gateOpen s = true ↔
      s.drain.irqPending = true ∧ s.drain.active = true ∧ s.drain.irqMask = false ∧ s.drain.inService = false ∧
        s.seq.phase = .idle ∧ s.req.valid = false := by
  simp [gateOpen, quiet_iff, and_assoc]

theorem primaryFree_iff (s : State) :
    primaryFree s = true ↔
      s.drain.inService = false ∧ s.seq.phase = .idle ∧ s.req.valid = false ∧ s.prim.todo = [] ∧
        s.prim.replyDue = false := by
  simp only [primaryFree, Bool.and_eq_true, Bool.not_eq_true', quiet_iff, midCommand_iff, and_assoc]

theorem entryReady_iff (s : State) :
    entryReady s = true ↔
      s.drain.inService = true ∧ s.seq.phase = .idle ∧ s.req.valid = false ∧ 0 < s.drain.left ∧
        s.ring.read ≠ s.ring.write := by
  simp [entryReady, quiet_iff, and_assoc]

/-! ## Who takes an instruction -/

theorem byPrimary_of_free {i : Instr} {f : State → State} {s : State} (h : primaryFree s = true) :
    byPrimary i f s = .next (f s) := by
  simp [byPrimary, h]

theorem byPrimary_of_held {i : Instr} {f : State → State} {s : State} (h : primaryFree s = false) :
    byPrimary i f s = .next { s with inbox := { wait := 0, item := .held i } :: s.inbox } := by
  simp [byPrimary, h]

/-- A requester that is held, refused, or presents its operation. -/
theorem byRequester_cases (i : Instr) (r : BusRequest) (s : State) :
    ((s.drain.inService = true ∨ midCommand s = true) ∧
        byRequester i r s = .next { s with inbox := { wait := 0, item := .held i } :: s.inbox }) ∨
      (s.drain.inService = false ∧ midCommand s = false ∧ s.req.valid = true ∧
        byRequester i r s = .refused .secondRequester) ∨
      (s.drain.inService = false ∧ midCommand s = false ∧ s.req.valid = false ∧
        byRequester i r s = .next (present r s)) := by
  unfold byRequester
  cases h₁ : s.drain.inService <;> cases h₂ : midCommand s <;> cases h₃ : s.req.valid <;> simp

theorem byRequester_of_free {i : Instr} {r : BusRequest} {s : State} (h : primaryFree s = true) :
    byRequester i r s = .next (present r s) := by
  obtain ⟨h₁, -, h₂, h₃, h₄⟩ := (primaryFree_iff s).1 h
  simp [byRequester, midCommand, h₁, h₂, h₃, h₄]

/-! ## Operands -/

/-- `Resolve`'s three cases (R61). -/
theorem resolve_cases (rt : RouteTable) (address : Byte) :
    let route := rt.slot (slotOf (windowIndex address))
    (route.cs = 0 ∧ resolve rt address = .skip .slotInactive) ∨
      (route.cs ≠ 0 ∧ legalMask route.amask = false ∧ resolve rt address = .skip .slotMalformed) ∨
      (route.cs ≠ 0 ∧ legalMask route.amask = true ∧
        resolve rt address =
          .active route.cs (addressLines (windowIndex address) route.amask) (windowIndex address)) := by
  intro route
  by_cases h₁ : route.cs = 0
  · exact .inl ⟨h₁, if_pos h₁⟩
  · cases h₂ : legalMask route.amask
    · exact .inr (.inl ⟨h₁, rfl, (if_neg h₁).trans (if_pos h₂)⟩)
    · exact .inr (.inr ⟨h₁, rfl, (if_neg h₁).trans (if_neg (by rw [h₂]; decide))⟩)

/-- An active operation's shadow index is its window index (R61, R67). -/
theorem resolve_active_sidx {rt : RouteTable} {address : Byte} {cs : BitVec 2} {a : BitVec 6} {sidx : BitVec 7}
    (h : resolve rt address = .active cs a sidx) : sidx = windowIndex address := by
  rcases resolve_cases rt address with ⟨-, h'⟩ | ⟨-, -, h'⟩ | ⟨-, -, h'⟩ <;> rw [h'] at h
  · cases h
  · cases h
  · injection h with _ _ h; exact h.symm

@[simp] theorem muteFilter_off (a7 : BitVec 7) (data : Byte) : muteFilter false a7 data = data := by
  simp [muteFilter]

theorem muteFilter_volume (a7 : BitVec 7) (data : Byte) (h : offsetOf a7 = Config.volOffset) :
    muteFilter true a7 data = data &&& 0xF0 := by
  simp [muteFilter, h]

theorem muteFilter_other (mute : Bool) (a7 : BitVec 7) (data : Byte) (h : offsetOf a7 ≠ Config.volOffset) :
    muteFilter mute a7 data = data := by
  simp [muteFilter, h]

/-- The byte sent in the claims' terms is the filtered byte (R121). -/
theorem sentByte_eq (mute : Bool) (sidx : BitVec 7) (data : Byte) :
    sentByte mute sidx data = muteFilter mute sidx data := by
  have h : sidx.toNat % 32 = 0x18 ↔ offsetOf sidx = Config.volOffset := by
    rw [← BitVec.toNat_inj]; simp [offsetOf, Config.volOffset]
  simp only [sentByte, muteFilter, h]

theorem Ring.next_lt (r : Ring) (o : Nat) (h : 0 < r.size) : r.next o < r.size := Nat.mod_lt _ h

/-- `Next(o)` is `o + 4`, or 0 at the end of the ring (R75). -/
theorem Ring.next_eq (r : Ring) {o : Nat} (h : o < r.size) (ho : o % 4 = 0) (hs : r.size % 4 = 0) :
    r.next o = if o + 4 = r.size then 0 else o + 4 := by
  unfold Ring.next Config.entryBytes
  split
  · rename_i h'; simp [h']
  · exact Nat.mod_eq_of_lt (by omega)

/-- `Fill()` stays below the size, and its remainder is what the two cursors leave (R75). -/
theorem Ring.fill_lt (r : Ring) (hr : r.read < r.size) (hw : r.write < r.size) : r.fill < r.size := by
  unfold Ring.fill; split <;> omega

theorem Ring.fill_aligned (r : Ring) (hr : r.read % 4 = 0) (hw : r.write % 4 = 0) (hs : r.size % 4 = 0)
    (hlt : r.read < r.size) : r.fill % 4 = 0 := by
  unfold Ring.fill; split <;> omega

theorem Ring.fill_eq_zero (r : Ring) (hlt : r.read < r.size) : r.fill = 0 ↔ r.read = r.write := by
  unfold Ring.fill; split <;> omega

/-! ## The sequencer -/

theorem startTransfer_zero (s : State) : startTransfer 0 s = enterXfer s := by simp [startTransfer]

theorem startTransfer_delay {n : Cycles} (h : n ≠ 0) (s : State) :
    startTransfer n s = { s with seq := { s.seq with phase := .delay, dly := n } } :=
  if_neg h

theorem present_of_idle (r : BusRequest) {s : State} (h : s.seq.phase = .idle) :
    present r s = accept (writeRequest r s) := by
  unfold present
  simp [h]

theorem present_of_busy (r : BusRequest) {s : State} (h : s.seq.phase ≠ .idle) : present r s = writeRequest r s := by
  unfold present
  simp [h]

theorem advanceSeq_idle {s : State} (h : s.seq.phase = .idle) : advanceSeq s = s := by
  simp [advanceSeq, h]

/-- One tick of a delay that is not over (R127). -/
theorem advanceSeq_delay {s : State} (h : s.seq.phase = .delay) (hd : s.seq.dly - 1 ≠ 0) :
    advanceSeq s = { s with seq := { s.seq with dly := s.seq.dly - 1 } } := by
  simp only [advanceSeq, h]
  rw [if_neg hd]

/-- The last tick of a delay (R127, R129). -/
theorem advanceSeq_delay_last {s : State} (h : s.seq.phase = .delay) (hd : s.seq.dly - 1 = 0) :
    advanceSeq s =
      if s.seq.op = .cycledDelay then { s with seq := { s.seq with dly := s.seq.dly - 1, phase := .idle } }
      else enterXfer { s with seq := { s.seq with dly := s.seq.dly - 1 } } := by
  simp only [advanceSeq, h]
  rw [if_pos hd]

/-- One tick of a transfer that is not over (R127). -/
theorem advanceSeq_xfer {s : State} (h : s.seq.phase = .xfer) (hx : s.seq.xcnt - 1 ≠ 0) :
    advanceSeq s = { s with seq := { s.seq with xcnt := s.seq.xcnt - 1 } } := by
  simp only [advanceSeq, h]
  rw [if_neg hx]

/-- The last tick of a transfer (R127). -/
theorem advanceSeq_xfer_last {s : State} (h : s.seq.phase = .xfer) (hx : s.seq.xcnt - 1 = 0) :
    advanceSeq s = endXfer { s with seq := { s.seq with xcnt := s.seq.xcnt - 1 } } := by
  simp only [advanceSeq, h]
  rw [if_pos hx]

theorem seqTick_of_busy {s : State} (h : (advanceSeq s).seq.phase ≠ .idle) : seqTick s = advanceSeq s := by
  simp [seqTick, h]

theorem seqTick_of_no_request {s : State} (h : s.req.valid = false) : seqTick s = advanceSeq s := by
  simp [seqTick, h]

@[simp] theorem endXfer_seq (s : State) : (endXfer s).seq = { s.seq with phase := .idle } := by
  unfold endXfer; dsimp only; split <;> rfl

@[simp] theorem endXfer_pins (s : State) : (endXfer s).pins = Pins.idle := rfl

/-! ## The timer (R177, R240) -/

theorem timerTick_inactive {s : State} (h : s.drain.active = false) : timerTick s = s := by
  simp [timerTick, h]

theorem timerTick_count {s : State} (h : s.drain.active = true)
    (hc : s.drain.irqCnt.toNat + 1 < s.drain.irqPeriod.toNat) :
    timerTick s = { s with drain := { s.drain with irqCnt := s.drain.irqCnt + 1 } } := by
  simp [timerTick, h, Nat.not_le.2 hc]

theorem timerTick_fire {s : State} (h : s.drain.active = true)
    (hc : s.drain.irqPeriod.toNat ≤ s.drain.irqCnt.toNat + 1) :
    timerTick s =
      { s with drain := { s.drain with irqCnt := 0, irqPeriod := s.rate.correctedRate, irqPending := true } } := by
  simp [timerTick, h, hc]

@[simp] theorem timerTick_drain (s : State) :
    (timerTick s).drain.active = s.drain.active ∧ (timerTick s).drain.irqMask = s.drain.irqMask ∧
    (timerTick s).drain.inService = s.drain.inService ∧ (timerTick s).drain.idleCount = s.drain.idleCount ∧
    (timerTick s).drain.left = s.drain.left ∧ (timerTick s).drain.delivered = s.drain.delivered := by
  unfold timerTick
  split
  · split <;> simp
  · simp

/-! ## The pauses between operations (log 20) -/

theorem paceTick_of_busy {s : State} (h : quiet s = false) : paceTick s = s.pace := by simp [paceTick, h]

/-- A pause list at its end stays there. -/
theorem paceTick_primary_nil {s : State} (h : s.pace.primary = []) : (paceTick s).primary = [] := by
  unfold paceTick
  split
  · exact h
  · split
    · exact h
    · split <;> simp [h, elapsePace]

theorem paceTick_handler_nil {s : State} (h : s.pace.handler = []) : (paceTick s).handler = [] := by
  unfold paceTick
  split
  · exact h
  · split
    · simp [h, elapsePace]
    · split <;> exact h

@[simp] theorem boundary_cyc (s : State) : (boundary s).cyc = s.cyc + 1 := by simp [boundary]

/-! ## The ring -/

theorem ensureActive_of_active {s : State} (h : s.drain.active = true) : ensureActive s = s := by
  simp [ensureActive, h]

theorem ensureActive_of_inactive {s : State} (h : s.drain.active = false) : ensureActive s = asidInit s := by
  simp [ensureActive, h]

theorem pushEntry_full {register value : Byte} {delay : Cycles} {s : State}
    (h : s.ring.next s.ring.write = s.ring.read) : pushEntry register value delay s = recordDrop s := by
  simp [pushEntry, h]

theorem pushEntry_store {register value : Byte} {delay : Cycles} {s : State}
    (h : s.ring.next s.ring.write ≠ s.ring.read) :
    pushEntry register value delay s =
      { s with ring := { storeEntry s.ring s.ring.write register value delay with
                         write := s.ring.next s.ring.write } } := by
  simp [pushEntry, h]

theorem grow_eq (s : State) :
    grow s = { s with ring := s.ring.grown, drain := { s.drain with irqMask := false } } := rfl

theorem Ring.grown_straight {r : Ring} (h : r.read ≤ r.write) : r.grown = { r with size := r.grownSize } := by
  simp [Ring.grown, Nat.not_lt.2 h]

@[simp] theorem Ring.grown_read (r : Ring) : r.grown.read = r.read := by unfold Ring.grown; split <;> simp

@[simp] theorem Ring.grown_size (r : Ring) : r.grown.size = r.grownSize := by unfold Ring.grown; split <;> simp

@[simp] theorem Ring.grown_epoch (r : Ring) : r.grown.epoch = r.epoch := by unfold Ring.grown; split <;> simp

/-- What `ShrinkToDefault` does to the ring (R175). -/
theorem shrinkToDefault_ring (s : State) :
    (shrinkToDefault s).ring =
      if Config.ringDefaultBytes < s.ring.size ∧ s.ring.mayShrink = true then
        { s.ring with size := Config.ringDefaultBytes }
      else s.ring := by
  unfold shrinkToDefault critical setMask
  by_cases h₁ : Config.ringDefaultBytes < s.ring.size <;> by_cases h₂ : s.ring.mayShrink = true <;> simp [h₁, h₂]

@[simp] theorem shrinkToDefault_drain (s : State) :
    (shrinkToDefault s).drain.active = s.drain.active ∧ (shrinkToDefault s).drain.irqPending = s.drain.irqPending ∧
    (shrinkToDefault s).drain.inService = s.drain.inService ∧
    (shrinkToDefault s).drain.irqPeriod = s.drain.irqPeriod ∧ (shrinkToDefault s).drain.irqCnt = s.drain.irqCnt ∧
    (shrinkToDefault s).drain.idleCount = s.drain.idleCount ∧ (shrinkToDefault s).drain.left = s.drain.left ∧
    (shrinkToDefault s).drain.delivered = s.drain.delivered := by
  unfold shrinkToDefault critical setMask
  split
  · dsimp only; split <;> simp
  · simp

/-- The mask after `ShrinkToDefault` (R175, log 14). -/
@[simp] theorem shrinkToDefault_irqMask (s : State) :
    (shrinkToDefault s).drain.irqMask =
      if Config.ringDefaultBytes < s.ring.size then false else s.drain.irqMask := by
  unfold shrinkToDefault critical setMask
  split
  · dsimp only
  · rfl

/-- What `NewTune` does to the rate registers (R183). -/
@[simp] theorem newTune_rate (s : State) :
    (newTune s).rate = { s.rate with hist := [], baseRate := if s.rate.rateExplicit then s.rate.baseRate else 0 } := by
  simp [newTune]

theorem newTune_ring (s : State) : (newTune s).ring = (shrinkToDefault s).ring := by
  simp [newTune, shrinkToDefault_ring]

/-! ## Rate control -/

theorem clampTarget_pos (base target : Nat) : 1 ≤ clampTarget base target := by
  simp [clampTarget, Config.rateMin]

/-- With a baseline the clamped target lies in the band (R209, R213). -/
theorem clampTarget_band {base : Nat} (h : base ≠ 0) (target : Nat) :
    max (clampLow base) Config.rateMin ≤ clampTarget base target ∧
      clampTarget base target ≤ max (clampHigh base) Config.rateMin := by
  have hle : clampLow base ≤ clampHigh base := by
    unfold clampLow clampHigh Config.clampLoDiv Config.clampHiNum Config.clampHiDen; omega
  simp only [clampTarget, if_pos h]
  omega

/-- The band never raises a target above the larger of itself and the lower end (R212). -/
theorem clampTarget_le (base target : Nat) : clampTarget base target ≤ max (max target base) 1 := by
  have hlo : clampLow base ≤ base := Nat.div_le_self _ _
  unfold clampTarget Config.rateMin
  split <;> omega

theorem nudgeTarget_le (par : Config.Params) (r : Ring) (target : Nat) : nudgeTarget par r target ≤ 2 * target := by
  have hl := Nat.div_le_self target par.nudgeLowDiv
  have hs := Nat.sub_le target (target / par.nudgeFullDiv)
  unfold nudgeTarget
  split
  · omega
  · split <;> omega

theorem applyTarget_apply {target : Nat} {s : State} (h : Config.hyst < absDiff target s.rate.correctedRate.toNat) :
    applyTarget target s = { s with rate := { s.rate with correctedRate := BitVec.ofNat 32 target } } := by
  simp [applyTarget, h]

theorem applyTarget_keep {target : Nat} {s : State} (h : absDiff target s.rate.correctedRate.toNat ≤ Config.hyst) :
    applyTarget target s = s := by
  simp [applyTarget, Nat.not_lt.2 h]

/-- The emergency cut is never below `RATE_MIN` (R211). -/
theorem emergency_rate (s : State) :
    (emergency s).rate.correctedRate.toNat =
      max (s.rate.correctedRate.toNat - s.rate.correctedRate.toNat / 4) 1 := by
  have := s.rate.correctedRate.isLt
  simp only [emergency, BitVec.toNat_ofNat, Config.emergDiv, Config.rateMin]
  exact Nat.mod_eq_of_lt (by omega)

theorem pushHistory_length {hist : List Ticks} (h : hist.length ≤ Config.histLen) (now : Ticks) :
    (pushHistory hist now).length = min (hist.length + 1) Config.histLen := by
  unfold pushHistory Config.histLen at *
  split <;> simp <;> omega

theorem historyRate_le (hist : List Ticks) : historyRate hist ≤ (2 ^ 32 - 1) / 7 := by
  unfold historyRate Config.histLen
  split
  · exact Nat.zero_le _
  · exact Nat.div_le_div_right (Nat.le_sub_one_of_lt (BitVec.isLt _))

/-! ## The drain service -/

/-- A service with no more than one frame in the ring ends at once (R176). -/
theorem startService_idle {s : State} (h : s.ring.fill ≤ Config.frameBytes) :
    startService s =
      endService
        { s with drain := { s.drain with irqPending := false, inService := true, left := 0, delivered := 0 } } := by
  simp [startService, Nat.not_lt.2 h]

theorem startService_drains {s : State} (h : Config.frameBytes < s.ring.fill) :
    startService s =
      { s with drain := { s.drain with irqPending := false, inService := true, left := Config.frameEntries,
                                       delivered := 0 } } := by
  simp [startService, h]

/-- A service that delivered something (R176). -/
theorem endService_delivered {s : State} (h : 0 < s.drain.delivered) :
    endService s =
      { s with drain := { s.drain with idleCount := 0, inService := false, left := 0, delivered := 0 },
               resumed := true } := by
  simp [endService, h]

/-- An idle service within the limit (R176, R179). -/
theorem endService_idle {s : State} (h : s.drain.delivered = 0) (hl : s.drain.idleCount < Config.idleLimit) :
    endService s =
      { s with drain := { s.drain with idleCount := s.drain.idleCount + 1, inService := false, left := 0,
                                       delivered := 0 },
               resumed := true } := by
  have : ¬Config.idleLimit < s.drain.idleCount + 1 := by omega
  simp [endService, h, this]

/-- The idle service past the limit tears the subsystem down (R171, R179). -/
theorem endService_teardown {s : State} (h : s.drain.delivered = 0) (hl : Config.idleLimit ≤ s.drain.idleCount) :
    endService s =
      { s with ring := s.ring.discard,
               drain := { s.drain with active := false, irqPending := false, idleCount := 0, inService := false,
                                       left := 0, delivered := 0 },
               resumed := true } := by
  have : Config.idleLimit < s.drain.idleCount + 1 := by omega
  simp [endService, h, this, asidTeardown]

/-! ## Every instruction answers -/

/-- An instruction gives a next state, except a bus operation while another request is outstanding (R230, R265). -/
theorem exec_answers (i : Instr) (s : State) :
    (∃ t, exec i s = .next t) ∨ (exec i s = .refused .secondRequester ∧ s.req.valid = true) := by
  have hp : ∀ (j : Instr) (f : State → State), ∃ t, byPrimary j f s = .next t := by
    intro j f
    unfold byPrimary
    split <;> exact ⟨_, rfl⟩
  have hr : ∀ (j : Instr) (r : BusRequest),
      (∃ t, byRequester j r s = .next t) ∨ (byRequester j r s = .refused .secondRequester ∧ s.req.valid = true) := by
    intro j r
    rcases byRequester_cases j r s with ⟨-, h⟩ | ⟨-, -, hv, h⟩ | ⟨-, -, -, h⟩
    · exact .inl ⟨_, h⟩
    · exact .inr ⟨h, hv⟩
    · exact .inl ⟨_, h⟩
  cases i
  case busWrite => exact hr _ _
  case busCycledWrite => exact hr _ _
  case busCycledRead => exact hr _ _
  case busCycledDelay => exact hr _ _
  case evTimer => left; show ∃ t, execEvTimer s = .next t; unfold execEvTimer; split <;> exact ⟨_, rfl⟩
  case ringEntry r v d =>
    left; show ∃ t, execRingEntry r v d s = .next t; unfold execRingEntry; split <;> exact ⟨_, rfl⟩
  case cmdMute => exact .inl (hp .cmdMute fun t => { t with mute := true })
  case cmdUnmute => exact .inl (hp .cmdUnmute fun t => { t with mute := false })
  case evPlayStop => exact .inl (hp .evPlayStop fun t => t)
  case evPush r v d => exact .inl (hp (.evPush r v d) fun t => pushEntry r v d (ensureActive t))
  all_goals exact .inl (hp _ _)

end Sys2Proof.Machine
end

