-- ==== Sys2Proof/Laws/PerInstr.lean ====
section
/-! SUPPORT. Statements made per instruction: the encoder keeps an instruction on its own interface. -/

namespace Sys2Proof.Laws

/-- The word `encode` gives stands at the interface of the instruction's format (30_encoding.md R108). -/
def EncodeFormat.Statement (i : Instr) : Prop := ∀ p : Config.Params, (encode p i).format = i.format

theorem EncodeFormat.cmdWrite (n : BitVec 6) (operands : List Byte) :
    EncodeFormat.Statement (.cmdWrite n operands) := fun _ => rfl
theorem EncodeFormat.cmdRead (address : Option Byte) :
    EncodeFormat.Statement (.cmdRead address) := fun _ => rfl
theorem EncodeFormat.cmdCycledWrite (n : BitVec 6) (operands : List Byte) :
    EncodeFormat.Statement (.cmdCycledWrite n operands) := fun _ => rfl
theorem EncodeFormat.cmdPause :
    EncodeFormat.Statement (.cmdPause) := fun _ => rfl
theorem EncodeFormat.cmdUnpause :
    EncodeFormat.Statement (.cmdUnpause) := fun _ => rfl
theorem EncodeFormat.cmdMute :
    EncodeFormat.Statement (.cmdMute) := fun _ => rfl
theorem EncodeFormat.cmdUnmute :
    EncodeFormat.Statement (.cmdUnmute) := fun _ => rfl
theorem EncodeFormat.cmdResetSid :
    EncodeFormat.Statement (.cmdResetSid) := fun _ => rfl
theorem EncodeFormat.cmdDisableSid :
    EncodeFormat.Statement (.cmdDisableSid) := fun _ => rfl
theorem EncodeFormat.cmdEnableSid :
    EncodeFormat.Statement (.cmdEnableSid) := fun _ => rfl
theorem EncodeFormat.cmdClearBus :
    EncodeFormat.Statement (.cmdClearBus) := fun _ => rfl
theorem EncodeFormat.cmdConfig (sub : List Byte) :
    EncodeFormat.Statement (.cmdConfig sub) := fun _ => rfl
theorem EncodeFormat.cmdResetMcu :
    EncodeFormat.Statement (.cmdResetMcu) := fun _ => rfl
theorem EncodeFormat.cmdBootloader :
    EncodeFormat.Statement (.cmdBootloader) := fun _ => rfl
theorem EncodeFormat.cmdUnassigned (sub : BitVec 5) :
    EncodeFormat.Statement (.cmdUnassigned sub) := fun _ => rfl
theorem EncodeFormat.cfgReadConfig (operands : List Byte) :
    EncodeFormat.Statement (.cfgReadConfig operands) := fun _ => rfl
theorem EncodeFormat.cfgRunAutoDetect (operands : List Byte) :
    EncodeFormat.Statement (.cfgRunAutoDetect operands) := fun _ => rfl
theorem EncodeFormat.cfgPlayer (control : BitVec 5) (operands : List Byte) :
    EncodeFormat.Statement (.cfgPlayer control operands) := fun _ => rfl
theorem EncodeFormat.busWrite (address : Byte) (data : Byte) :
    EncodeFormat.Statement (.busWrite address data) := fun _ => rfl
theorem EncodeFormat.busCycledWrite (address : Byte) (data : Byte) (cycles : Cycles) :
    EncodeFormat.Statement (.busCycledWrite address data cycles) := fun _ => rfl
theorem EncodeFormat.busCycledRead (address : Byte) (cycles : Cycles) :
    EncodeFormat.Statement (.busCycledRead address cycles) := fun _ => rfl
theorem EncodeFormat.busCycledDelay (cycles : Cycles) :
    EncodeFormat.Statement (.busCycledDelay cycles) := fun _ => rfl
theorem EncodeFormat.evPlayStart :
    EncodeFormat.Statement (.evPlayStart) := fun _ => rfl
theorem EncodeFormat.evPlayStop :
    EncodeFormat.Statement (.evPlayStop) := fun _ => rfl
theorem EncodeFormat.evSetBaseRate (r : Ticks) :
    EncodeFormat.Statement (.evSetBaseRate r) := fun _ => rfl
theorem EncodeFormat.evFrame (k : BitVec 2) :
    EncodeFormat.Statement (.evFrame k) := fun _ => rfl
theorem EncodeFormat.evPush (register : Byte) (value : Byte) (delay : Cycles) :
    EncodeFormat.Statement (.evPush register value delay) := fun _ => rfl
theorem EncodeFormat.evTimer :
    EncodeFormat.Statement (.evTimer) := fun _ => rfl
theorem EncodeFormat.ringEntry (register : Byte) (value : Byte) (delay : Cycles) :
    EncodeFormat.Statement (.ringEntry register value delay) := fun _ => rfl

end Sys2Proof.Laws
end

