-- ==== Sys2Proof/Tests/Slice0.lean ====
section
/-! SUPPORT. Tests: words written out from 30_encoding.md, ill-formed terms, one-step tests whose expected values are
those of 95_test_vectors.md (each names its vector), and for every statement with hypotheses a state and operands that
meet them. -/

namespace Sys2Proof.Tests

open Sys2Proof Sys2Proof.Machine

/-! ## Helpers -/

/-- The default model arguments. -/
abbrev par0 : Config.Params := Config.Params.default

/-- `RT_A`: one chip in socket 1 (20_memory.md R76). -/
def rtA : RouteTable := { RouteTable.reset with slot0 := { cs := 0b01, amask := 0x1F } }

/-- `RT_B`: two chips behind each socket (R76). -/
def rtB : RouteTable :=
  { slot0 := { cs := 0b01, amask := 0x1F }, slot1 := { cs := 0b01, amask := 0x3F },
    slot2 := { cs := 0b10, amask := 0x1F }, slot3 := { cs := 0b10, amask := 0x3F } }

/-- `RT_X`: slot 0 with a mask that has no meaning (R76). -/
def rtX : RouteTable := { RouteTable.reset with slot0 := { cs := 0b01, amask := 0x0F } }

/-- The start of the vectors: `RT_A` loaded, the counter at 1000. -/
def onA : State := { State.reset with rt := rtA, cyc := 1000 }

/-- An active subsystem with the given cursors and size. -/
def ringAt (size read write : Nat) : State :=
  { onA with ring := { Ring.reset with size := size, read := read, write := write },
             drain := { onA.drain with active := true } }

/-- A firing at the open gate, with `write` bytes queued from offset 0. -/
def firing (write idle : Nat) : State :=
  let s := ringAt 2240 0 write
  { s with drain := { s.drain with irqPending := true, idleCount := idle } }

/-- A delay in flight. -/
def delaying : State := { onA with seq := { Seq.reset with phase := .delay, op := .cycledDelay, dly := 3 } }

/-- A service in progress, with entries to take. -/
def serving : State :=
  let s := ringAt 2240 0 116
  { s with drain := { s.drain with inService := true, left := 28 } }

/-- A command in progress. -/
def inCommand : State := { onA with prim := { todo := [.write 0 0], replyDue := false } }

/-- The state after a step, or the state itself where it stops. -/
def after (o : Host.Outcome State Fault Refusal) (s : State) : State :=
  match o with
  | .next t => t
  | _ => s

/-- The invariant from its parts, each decidable. -/
def invChecks (s : State) : Bool :=
  s.par.ok && shadowWf s.shadow &&
  (decide (s.ring.size ∈ legalSizes) && decide (s.ring.read % Config.entryBytes = 0) &&
    decide (s.ring.write % Config.entryBytes = 0) && decide (s.ring.read < s.ring.size) &&
    decide (s.ring.write < s.ring.size) && ringMemWf s.ring.mem) &&
  (decide (s.seq.phase = .idle → s.pins = Pins.idle) && decide (s.seq.phase = .delay → s.pins = Pins.idle) &&
    decide (s.seq.phase = .xfer → s.pins = Pins.ofSeq s.seq) && decide (s.seq.phase = .delay → s.seq.dly ≠ 0) &&
    decide (s.seq.phase = .xfer → 1 ≤ s.seq.xcnt ∧ s.seq.xcnt ≤ s.par.tXfer) &&
    decide (s.req.valid = true → s.seq.phase ≠ .idle)) &&
  (decide (1 ≤ s.rate.chipsEst) && decide (s.rate.chipsEst ≤ Config.maxChips) &&
    decide (s.rate.multiAge ≤ Config.multiTimeout) && decide (s.rate.hist.length ≤ Config.histLen)) &&
  (decide (s.drain.idleCount ≤ Config.idleLimit + 1) &&
    decide (s.drain.active = false → s.drain.irqPending = false) &&
    decide (s.drain.inService = true → s.drain.active = true) &&
    decide (s.drain.active = true → Config.rateMin ≤ s.rate.correctedRate.toNat) &&
    decide (s.drain.active = true → s.drain.irqCnt.toNat < s.drain.irqPeriod.toNat) &&
    decide (s.drain.left + s.drain.delivered ≤ Config.frameEntries) &&
    decide (s.drain.inService = false → s.drain.left = 0 ∧ s.drain.delivered = 0))

theorem inv_of_checks {s : State} (h : invChecks s = true) : Inv s := by
  simp only [invChecks, Bool.and_eq_true, decide_eq_true_eq] at h
  obtain ⟨⟨⟨⟨⟨hp, hsh⟩, ⟨⟨⟨⟨⟨r1, r2⟩, r3⟩, r4⟩, r5⟩, r6⟩⟩, ⟨⟨⟨⟨⟨q1, q2⟩, q3⟩, q4⟩, q5⟩, q6⟩⟩,
    ⟨⟨⟨a1, a2⟩, a3⟩, a4⟩⟩, ⟨⟨⟨⟨⟨⟨d1, d2⟩, d3⟩, d4⟩, d5⟩, d6⟩, d7⟩⟩ := h
  exact ⟨hp, hsh, ⟨r1, r2, r3, r4, r5, r6⟩, ⟨q1, q2, q3, q4, q5, q6⟩, ⟨a1, a2, a3, a4⟩,
    ⟨d1, d2, d3, d4, d5, d6, d7⟩⟩

theorem onA_inv : Inv onA := inv_of_checks (by decide)
theorem onA_free : primaryFree onA = true := by decide

/-! ## Decoding: words written out from 30_encoding.md, one for every instruction -/

theorem test_decode_cmd_write :
    decode par0 (.cmd [0b00000010, 0x18, 0x0F]) = .ok (.cmdWrite 2 [0x18, 0x0F]) := by decide
theorem test_decode_cmd_read : decode par0 (.cmd [0b01111111, 0x1B]) = .ok (.cmdRead (some 0x1B)) := by decide
theorem test_decode_cmd_read_short : decode par0 (.cmd [0b01000000]) = .ok (.cmdRead none) := by decide
theorem test_decode_cmd_cycled_write :
    decode par0 (.cmd [0b10000100, 0x18, 0x0F, 0x00, 0x0A]) =
      .ok (.cmdCycledWrite 4 [0x18, 0x0F, 0x00, 0x0A]) := by decide
theorem test_decode_cmd_pause : decode par0 (.cmd [0b11001010]) = .ok .cmdPause := by decide
theorem test_decode_cmd_unpause : decode par0 (.cmd [0b11101011]) = .ok .cmdUnpause := by decide
theorem test_decode_cmd_mute : decode par0 (.cmd [0b11001100]) = .ok .cmdMute := by decide
theorem test_decode_cmd_unmute : decode par0 (.cmd [0b11101101]) = .ok .cmdUnmute := by decide
theorem test_decode_cmd_reset_sid : decode par0 (.cmd [0b11001110]) = .ok .cmdResetSid := by decide
theorem test_decode_cmd_disable_sid : decode par0 (.cmd [0b11001111]) = .ok .cmdDisableSid := by decide
theorem test_decode_cmd_enable_sid : decode par0 (.cmd [0b11010000]) = .ok .cmdEnableSid := by decide
theorem test_decode_cmd_clear_bus : decode par0 (.cmd [0b11010001]) = .ok .cmdClearBus := by decide
theorem test_decode_cmd_config : decode par0 (.cmd [0b11010010, 0x31, 7]) = .ok (.cmdConfig [0x31, 7]) := by decide
theorem test_decode_cmd_config_short : decode par0 (.cmd [0b11110010]) = .ok (.cmdConfig []) := by decide
theorem test_decode_cmd_reset_mcu : decode par0 (.cmd [0b11010011]) = .ok .cmdResetMcu := by decide
theorem test_decode_cmd_bootloader : decode par0 (.cmd [0b11110100]) = .ok .cmdBootloader := by decide
theorem test_decode_cmd_unassigned : decode par0 (.cmd [0b11010101]) = .ok (.cmdUnassigned 0x15) := by decide
theorem test_decode_cfg_read_config : decode par0 (.cmd [0b11010010, 0x30, 1]) = .ok (.cfgReadConfig [1]) := by decide
theorem test_decode_cfg_auto_detect : decode par0 (.cmd [0b11110010, 0x5B]) = .ok (.cfgRunAutoDetect []) := by decide
theorem test_decode_cfg_player :
    decode par0 (.cmd [0b11010010, 0b11100101, 9]) = .ok (.cfgPlayer 5 [9]) ∧
      decode par0 (.cmd [0b11010010, 0b11011111]) = .ok (.cmdConfig [0xDF]) := by decide
theorem test_decode_bus_write :
    decode par0 (.req { op := 0b00, addr := 0x18, data := 0x0F, cycles := 9 }) = .ok (.busWrite 0x18 0x0F) := by decide
theorem test_decode_bus_cycled_write :
    decode par0 (.req { op := 0b01, addr := 4, data := 0x21, cycles := 10 }) = .ok (.busCycledWrite 4 0x21 10) := by
  decide
theorem test_decode_bus_cycled_read :
    decode par0 (.req { op := 0b10, addr := 0x1B, data := 1, cycles := 5 }) = .ok (.busCycledRead 0x1B 5) := by decide
theorem test_decode_bus_cycled_delay :
    decode par0 (.req { op := 0b11, addr := 1, data := 1, cycles := 100 }) = .ok (.busCycledDelay 100) := by decide
theorem test_decode_ev_play_start : decode par0 (.aev (EventWord.bare 0b000)) = .ok .evPlayStart := by decide
theorem test_decode_ev_play_stop : decode par0 (.aev (EventWord.bare 0b001)) = .ok .evPlayStop := by decide
theorem test_decode_ev_set_base_rate :
    decode par0 (.aev { EventWord.bare 0b010 with r := 19656 }) = .ok (.evSetBaseRate 19656) := by decide
theorem test_decode_ev_frame : decode par0 (.aev { EventWord.bare 0b011 with k := 2 }) = .ok (.evFrame 2) := by decide
theorem test_decode_ev_push :
    decode par0 (.aev { EventWord.bare 0b100 with register := 0x18, value := 0x0F, delay := 0x0102 }) =
      .ok (.evPush 0x18 0x0F 0x0102) := by decide
theorem test_decode_ev_unassigned :
    decode par0 (.aev (EventWord.bare 0b101)) = .error .eventUnassigned ∧
      decode par0 (.aev (EventWord.bare 0b111)) = .error .eventUnassigned := by decide
theorem test_decode_ev_timer : decode par0 .timer = .ok .evTimer := by decide
theorem test_decode_ring_entry : decode par0 (.ent 0x180F0102) = .ok (.ringEntry 0x18 0x0F 0x0102) := by decide
theorem test_decode_empty_buffer : decode par0 (.cmd []) = .error .emptyBuffer := by decide

theorem test_table_words :
    decodeTableWord 8 0xCC = some .cmdMute ∧ decodeTableWord 2 3 = some (.busCycledDelay 0) ∧
      decodeTableWord 3 4 = some (.evPush 0 0 0) ∧ decodeTableWord 0 0 = some .evTimer ∧
      decodeTableWord 32 0x180F0102 = some (.ringEntry 0x18 0x0F 0x0102) := by decide

/-! ## Well-formedness: an ill-formed term for each check -/

theorem test_ill_mute : WellFormed { par0 with subopMute := 0x12 } .cmdMute = false := by decide
theorem test_ill_unmute :
    WellFormed { par0 with subopUnmute := 0x12 } .cmdUnmute = false ∧
      WellFormed { par0 with subopUnmute := 0x0C } .cmdUnmute = false := by decide
theorem test_ill_reset_sid :
    WellFormed { par0 with subopResetSid := 0x12 } .cmdResetSid = false ∧
      WellFormed { par0 with subopResetSid := 0x0C } .cmdResetSid = false ∧
      WellFormed { par0 with subopResetSid := 0x0D } .cmdResetSid = false := by decide
theorem test_ill_pause : WellFormed { par0 with subopMute := 0x0A } .cmdPause = false := by decide
theorem test_ill_unpause : WellFormed { par0 with subopMute := 0x0B } .cmdUnpause = false := by decide
theorem test_ill_disable_sid : WellFormed { par0 with subopUnmute := 0x0F } .cmdDisableSid = false := by decide
theorem test_ill_enable_sid : WellFormed { par0 with subopUnmute := 0x10 } .cmdEnableSid = false := by decide
theorem test_ill_clear_bus : WellFormed { par0 with subopResetSid := 0x11 } .cmdClearBus = false := by decide
theorem test_ill_reset_mcu : WellFormed { par0 with subopResetSid := 0x13 } .cmdResetMcu = false := by decide
theorem test_ill_bootloader : WellFormed { par0 with subopMute := 0x14 } .cmdBootloader = false := by decide
theorem test_ill_unassigned :
    WellFormed par0 (.cmdUnassigned 0x0C) = false ∧ WellFormed par0 (.cmdUnassigned 0x12) = false := by decide
theorem test_ill_config :
    WellFormed par0 (.cmdConfig [0x30]) = false ∧ WellFormed par0 (.cmdConfig [0x5B, 1]) = false ∧
      WellFormed par0 (.cmdConfig [0xE0]) = false := by decide

/-! ## One step of each instruction -/

/-- B2: the chip gets the low nibble cleared, the shadow keeps the byte. -/
theorem test_bus_write_muted :
    let t := after (exec (.busWrite 0x18 0x0F) { onA with mute := true }) onA
    t.trace = [.write 1000 0b01 0x18 0x00] ∧ shadowByte t.shadow 0x18 = 0x0F := by decide
/-- B3: an inactive slot. -/
theorem test_bus_write_skipped :
    let t := after (exec (.busWrite 0x38 0x0F) onA) onA
    t.trace = [] ∧ t.shadow = [] ∧ t.seq.phase = .idle ∧ t.req.valid = false := by decide
/-- B8: boundary 1000. -/
theorem test_bus_cycled_write_accepted :
    let t := after (exec (.busCycledWrite 0x04 0x21 10) onA) onA
    t.seq.phase = .delay ∧ t.seq.dly = 10 ∧ shadowByte t.shadow 4 = 0x21 ∧ t.pins.cs1n = true :=
  ⟨by decide, by decide, by decide, by decide⟩
/-- B12: the transfer's first tick, on the second select, with A5 through and the filtered byte. -/
theorem test_bus_cycled_write_pins :
    let s := { onA with rt := rtB, mute := true }
    let t := ticks 3 (after (exec (.busCycledWrite 0x78 0xFF 3) s) s)
    t.pins.control = 0b1001111000 ∧ t.pins.d = some 0xF0 ∧ t.trace = [.write 1003 0b10 0x38 0xF0] := by decide
/-- B8's pin word (R100): 0x28421. -/
theorem test_pin_word :
    (Pins.ofSeq { Seq.reset with cs := 0b01, a := 0x04, d := 0x21 }).control ++ (0x21 : Byte) = 0x28421#18 := by decide
/-- B13: the delay, then the read direction. -/
theorem test_bus_cycled_read :
    let t := ticks 5 (after (exec (.busCycledRead 0x1B 5) onA) onA)
    t.pins.control = 0b0110011011 ∧ t.pins.d = none ∧ t.resultValid = false := by decide
/-- B14: a skipped read returns 0. -/
theorem test_bus_cycled_read_skipped :
    let t := after (exec (.busCycledRead 0x5B 5) { onA with result := 7 }) onA
    t.result = 0 ∧ t.resultValid = true ∧ t.seq.phase = .idle := by decide
/-- B16 and the first tick of B17. -/
theorem test_bus_cycled_delay :
    (after (exec (.busCycledDelay 0) onA) onA).seq.phase = .idle ∧
      (ticks 1 (after (exec (.busCycledDelay 100) onA) onA)).seq.dly = 99 := by decide
/-- K2: the first pair is presented, the second waits. -/
theorem test_cmd_write :
    let t := after (exec (.cmdWrite 4 [0x00, 0x11, 0x01, 0x22]) onA) onA
    t.trace = [.write 1000 0b01 0x00 0x11] ∧ t.prim.todo = [.write 0x01 0x22] := by decide
/-- K4 and K5: a count of 0, and a second pair cut short. -/
theorem test_cmd_write_counts :
    writeBurst 1 [0x00, 0x11] = [] ∧ writeBurst 4 [0x00, 0x11, 0x01] = [.write 0x00 0x11] := by decide
/-- K7: the high byte of each delay first. -/
theorem test_cmd_cycled_write :
    let t := after (exec (.cmdCycledWrite 8 [0x00, 0x10, 0x00, 0x05, 0x01, 0x20, 0x01, 0x00]) onA) onA
    t.seq.dly = 5 ∧ t.prim.todo = [.cycledWrite 0x01 0x20 256] := by decide
/-- K10: a read of an inactive slot replies 0 at once. -/
theorem test_cmd_read :
    let t := after (exec (.cmdRead (some 0x3B)) onA) onA
    t.prim.replyDue = true ∧ (after (step t) t).replies = [0x00] ∧ (after (step t) t).cyc = 1000 := by decide
theorem test_cmd_mute : (after (exec .cmdMute onA) onA).mute = true := by decide
theorem test_cmd_unmute : (after (exec .cmdUnmute { onA with mute := true }) onA).mute = false := by decide
/-- R157: a pulse of two ticks. -/
theorem test_cmd_reset_sid :
    let t := after (exec .cmdResetSid { onA with par := { par0 with resPulseTicks := 2 } }) onA
    resN t = false ∧ resN (ticks 1 t) = false ∧ resN (ticks 2 t) = true := by decide
/-- R260: routing and mute are cleared. -/
theorem test_cmd_reset_mcu :
    let t := after (exec .cmdResetMcu { onA with mute := true, rate := { onA.rate with baseRate := 5 } }) onA
    t.mute = false ∧ t.rt = RouteTable.reset ∧ t.rate.baseRate = 0 := by decide
/-- R158: nothing but the record of what is forwarded. -/
theorem test_forwarded_subops :
    (after (exec .cmdPause onA) onA).forwarded = [.subop 0x0A] ∧
      (after (exec .cmdUnpause onA) onA).forwarded = [.subop 0x0B] ∧
      (after (exec .cmdDisableSid onA) onA).forwarded = [.subop 0x0F] ∧
      (after (exec .cmdEnableSid onA) onA).forwarded = [.subop 0x10] ∧
      (after (exec .cmdClearBus onA) onA).forwarded = [.subop 0x11] ∧
      (after (exec .cmdBootloader onA) onA).forwarded = [.subop 0x14] := by decide
/-- K13 and R155. -/
theorem test_forwarded_configs :
    (after (exec (.cmdUnassigned 1) onA) onA).forwarded = [] ∧
      (after (exec (.cmdConfig []) onA) onA).forwarded = [] ∧
      (after (exec (.cmdConfig [0x31]) onA) onA).forwarded = [.config [0x31]] ∧
      (after (exec (.cfgReadConfig []) onA) onA).forwarded = [.config [0x30]] ∧
      (after (exec (.cfgRunAutoDetect [1]) onA) onA).forwarded = [.config [0x5B, 1]] ∧
      (after (exec (.cfgPlayer 5 []) onA) onA).forwarded = [.config [0xE5]] := by decide
/-- H1. -/
theorem test_ev_play_start_shrinks : (after (exec .evPlayStart (ringAt 4480 400 800)) onA).ring.size = 2240 := by decide
/-- H4: the write cursor stands at the default size. -/
theorem test_ev_play_start_keeps : (after (exec .evPlayStart (ringAt 4480 100 2240)) onA).ring.size = 4480 := by decide
theorem test_ev_play_stop : exec .evPlayStop onA = .next onA := rfl
/-- R204. -/
theorem test_ev_set_base_rate :
    let t := after (exec (.evSetBaseRate 19656) onA) onA
    t.rate.baseRate = 19656 ∧ t.rate.rateExplicit = true ∧ t.drain.active = false := by decide
/-- The chip count of 95_test_vectors.md: from 4 to 1 at the 30th message, and `EV_FRAME(3)`. -/
theorem test_ev_frame_estimate :
    let old := { onA with rate := { onA.rate with chipsEst := 4, multiAge := 29 } }
    (after (exec (.evFrame 0) old) onA).rate.chipsEst = 1 ∧
      (after (exec (.evFrame 3) onA) onA).rate.chipsEst = 4 ∧
      (after (exec (.evFrame 3) onA) onA).rate.multiAge = 0 := by decide
/-- The eighth sample of S3: the baseline, and the rate with the low nudge. -/
theorem test_ev_frame_eighth :
    let s := { ringAt 2240 0 0 with
                cyc := 240000
                rate := { onA.rate with
                  hist := [100000, 120000, 140000, 160000, 180000, 200000, 220000]
                  lastArrival := 220000, lastValid := true } }
    let t := after (exec (.evFrame 0) s) s
    t.rate.baseRate = 20000 ∧ t.rate.correctedRate = 21250 ∧ histCount t = 8 := by decide
/-- P-1: the lazy initialisation, the four bytes, the cursor. -/
theorem test_ev_push :
    let t := after (exec (.evPush 0x18 0x0F 0x0102) { onA with cyc := 5000 }) onA
    t.drain.active = true ∧ t.ring.mem = [(0, 0x18), (1, 0x0F), (2, 0x01), (3, 0x02)] ∧ t.ring.write = 4 ∧
      t.drain.irqPeriod = 20000 := by decide
/-- P-2. -/
theorem test_ev_push_dropped :
    let t := after (exec (.evPush 1 2 3) (ringAt 2240 0 2236)) onA
    t.ring = (ringAt 2240 0 2236).ring ∧ t.ovf = true ∧ t.ovfCount = 1 := by decide
/-- D1: 112 bytes are not more than one frame. -/
theorem test_ev_timer_idle :
    let t := after (exec .evTimer (firing 112 0)) onA
    t.drain.idleCount = 1 ∧ t.drain.inService = false ∧ t.ring.read = 0 := by decide
/-- D6: the 101st idle service. -/
theorem test_ev_timer_teardown :
    let t := after (exec .evTimer (firing 40 100)) onA
    t.drain.active = false ∧ t.ring.write = 0 ∧ t.drain.idleCount = 0 := by decide
/-- D2: one entry of the service. -/
theorem test_ring_entry :
    let t := after (exec (.ringEntry 0x05 0x07 0) serving) onA
    t.ring.read = 4 ∧ t.drain.delivered = 1 ∧ t.trace = [.write 1000 0b01 0x05 0x07] := by decide
/-- A14 and A16: the emergency cut, and the growth before the target. -/
theorem test_adjust_room :
    let s := { ringAt 16800 0 16352 with rate := { onA.rate with baseRate := 20000 } }
    let g := { ringAt 2240 0 1792 with rate := { onA.rate with baseRate := 20000 } }
    (adjustRate 20000 s).rate.correctedRate = 15000 ∧ (adjustRate 20000 g).ring.size = 4480 ∧
      (adjustRate 20000 g).rate.correctedRate = 20000 := by decide
/-- A3, A4 and A12. -/
theorem test_adjust_target :
    let s := { ringAt 2240 0 1000 with rate := { onA.rate with baseRate := 20000 } }
    let f := { ringAt 16800 0 15288 with rate := { onA.rate with baseRate := 20000 } }
    (adjustRate 20050 s).rate.correctedRate = 20000 ∧ (adjustRate 20051 s).rate.correctedRate = 20051 ∧
      (adjustRate 20000 f).rate.correctedRate = 17500 := by decide
/-- R61's two masks: A5 goes through in slot 1 of `RT_B` (B5), not in slot 2. -/
theorem test_resolve_masks :
    resolve rtB 0x25 = .active 0b01 0x25 0x25 ∧ resolve rtB 0x45 = .active 0b10 0x05 0x45 ∧
      resolve rtX 0x05 = .skip .slotMalformed := by decide

/-- R71 and R37: entering the section of a swap sets the mask; the swap, which comes next, leaves it at 0. -/
theorem test_swap_section :
    let s := { onA with inbox := [{ wait := 0, item := .env (.enterSwap 0 rtB) }] }
    let t := after (step s) s
    t.drain.irqMask = true ∧ (after (step t) t).drain.irqMask = false ∧ (after (step t) t).rt = rtB ∧
      (after (step t) t).cyc = 1000 := ⟨rfl, by decide, rfl, rfl⟩

/-! ## Words placed where the next step runs them -/

theorem test_placed_command :
    step (State.reset.withFetchWord 8 0xCC) = exec .cmdMute State.reset := rfl
theorem test_placed_firing :
    (after (step (State.reset.withFetchWord 0 0)) State.reset).drain.idleCount = 1 := by decide
theorem test_placed_entry :
    let t := after (step (State.reset.withFetchWord 32 0x18010203)) State.reset
    t.ring.read = 4 ∧ t.drain.delivered = 1 ∧ t.req.data = 0x01 ∧ t.req.cycles = 0x0203 := by decide

/-! ## Witnesses: the hypotheses of each statement are met, each clause's on its own -/

/-- ResolveFollowsRoutingTable. -/
theorem witness_resolve :
    let route := fun (rt : RouteTable) (address : Byte) => rt.slot (slotOf (windowIndex address))
    (route rtA 0x38).cs = 0b00 ∧
      ((route rtX 0x05).cs ≠ 0b00 ∧ (route rtX 0x05).amask ≠ 0x1F ∧ (route rtX 0x05).amask ≠ 0x3F) ∧
      ((route rtB 0xFF).cs ≠ 0b00 ∧ (route rtB 0xFF).amask = 0x3F) ∧
      ((route rtB 0x00).cs ≠ 0b00 ∧ (route rtB 0x00).amask = 0x1F) := by decide
/-- BusWriteCompletes, BusCycledWriteCompletes, BusCycledReadCompletes, BusCycledDelayCompletes, ReadCommandReplies:
the state, which both a skip and an active operation may meet, and a word of each operation. -/
theorem witness_bus :
    Inv onA ∧ primaryFree onA = true ∧ resolve onA.rt 0x18 = .active 0b01 0x18 0x18 ∧
      resolve onA.rt 0x38 = .skip .slotInactive ∧
      (ReqWord.mk 0b00 1 2 3).op = 0b00 ∧ (ReqWord.mk 0b01 1 2 3).op = 0b01 ∧
      (ReqWord.mk 0b10 1 2 3).op = 0b10 ∧ (ReqWord.mk 0b11 1 2 3).op = 0b11 :=
  ⟨onA_inv, by decide, by decide, by decide, rfl, rfl, rfl, rfl⟩
/-- TicksAgreeWithTransaction. -/
theorem witness_transaction :
    1 ≤ onA.par.tXfer ∧ onA.seq.phase = .idle ∧ onA.req.valid = false ∧ onA.pins = Pins.idle := by decide
/-- FlightIgnoresRoutingAndMute, RequestWaitsWhileBusy (both parts). -/
theorem witness_busy :
    busy delaying = true ∧ delaying.req.valid = false ∧ delaying.drain.inService = false ∧
      midCommand delaying = false ∧
      ({ delaying with req := { delaying.req with valid := true } } : State).req.valid = true := by decide
/-- SecondRequestRefused. -/
theorem witness_second_request :
    let s := { delaying with req := { delaying.req with valid := true } }
    s.drain.inService = false ∧ midCommand s = false ∧ s.req.valid = true := by decide
/-- HeldInputIsKept: each way of being held. -/
theorem witness_held :
    (Instr.cmdMute.format = .cmd ∧ primaryFree delaying = false) ∧
      (Instr.evPlayStart.format = .aev ∧ primaryFree serving = false) ∧
      ((Instr.busWrite 0 0).format = .req ∧ serving.drain.inService = true) ∧
      ((Instr.busCycledDelay 1).format = .req ∧ midCommand inCommand = true) := by decide
/-- BurstGroupsFollowCount: a count of 0, and the largest. -/
theorem witness_burst_groups :
    ([0x18, 0x0F, 0x00, 0x0A] : List Byte)[2 * 0]? = some 0x18 ∧ (0 : Nat) < 1 ∧
      (63#6).toNat / 2 = 31 ∧ (63#6).toNat / 4 = 15 ∧
      ((List.replicate 63 7 : List Byte)[2 * 30]? = some 7 ∧ (List.replicate 63 7 : List Byte)[2 * 30 + 1]? = some 7) ∧
      ((List.replicate 63 7 : List Byte)[4 * 14]? = some 7 ∧ (List.replicate 63 7 : List Byte)[4 * 14 + 1]? = some 7 ∧
        (List.replicate 63 7 : List Byte)[4 * 14 + 2]? = some 7 ∧
        (List.replicate 63 7 : List Byte)[4 * 14 + 3]? = some 7) := by decide
/-- BurstStartsWithFirstGroup, BurstIsSequenceOfTransactions, ReadCommandReplies, ReadCommandPresentsRead and the
statements whose only hypothesis is a free primary context. -/
theorem witness_primary : Inv onA ∧ primaryFree onA = true ∧ OnlyPrimary onA :=
  ⟨onA_inv, by decide, by unfold OnlyPrimary; decide⟩
/-- MuteCommandsSetFlag and ResetSidPulsesLine: bytes of the command class with those sub-opcodes. -/
theorem witness_subops :
    (0xCC#8).extractLsb' 6 2 = 0b11#2 ∧ (0xCC#8).extractLsb' 0 5 = par0.subopMute ∧ par0.subopMute ≠ 0x12 ∧
      (0xED#8).extractLsb' 6 2 = 0b11#2 ∧ (0xED#8).extractLsb' 0 5 = par0.subopUnmute ∧ par0.subopUnmute ≠ 0x12 ∧
      par0.subopUnmute ≠ par0.subopMute ∧ (0xCE#8).extractLsb' 6 2 = 0b11#2 ∧
      (0xCE#8).extractLsb' 0 5 = par0.subopResetSid ∧ par0.subopResetSid ≠ 0x12 ∧
      par0.subopResetSid ≠ par0.subopMute ∧ par0.subopResetSid ≠ par0.subopUnmute := by decide
/-- ResetMcuIsPowerOnReset: the environment's, with an operation in flight. -/
theorem witness_power_on :
    let s := { delaying with inbox := [{ wait := 0, item := .env .powerOn }] }
    gateOpen s = false ∧ s.inbox = { wait := 0, item := .env .powerOn } :: [] := ⟨by decide, rfl⟩
/-- LazyInitialisation: both states, with and without a baseline. -/
theorem witness_lazy :
    (ringAt 2240 0 0).drain.active = true ∧ onA.drain.active = false ∧ onA.rate.baseRate = 0 ∧
      ({ onA with rate := { onA.rate with baseRate := 1 } } : State).rate.baseRate ≠ 0 := by decide
/-- PushStoresOrDrops: an inactive subsystem, a ring with room for one entry, a full one. -/
theorem witness_push :
    primaryFree onA = true ∧ primaryFree (ringAt 2240 8 2236) = true ∧
      (2236 + 4) % (ringAt 2240 8 2236).ring.size ≠ (ringAt 2240 8 2236).ring.read ∧
      primaryFree (ringAt 2240 0 2236) = true ∧
      (2236 + 4) % (ringAt 2240 0 2236).ring.size = (ringAt 2240 0 2236).ring.read := by decide

theorem ring_inv_of_checks {r : Ring}
    (h : r.size ∈ legalSizes ∧ r.read % Config.entryBytes = 0 ∧ r.write % Config.entryBytes = 0 ∧ r.read < r.size ∧
      r.write < r.size ∧ ringMemWf r.mem = true) : RingInv r :=
  ⟨h.1, h.2.1, h.2.2.1, h.2.2.2.1, h.2.2.2.2.1, h.2.2.2.2.2⟩

/-- PushAppendsToQueue: a full ring and one that is not. -/
theorem witness_push_queue :
    RingInv (ringAt 2240 0 2236).ring ∧ (ringAt 2240 0 2236).ring.next 2236 = 0 ∧
      RingInv (ringAt 16800 8 16796).ring ∧ (ringAt 16800 8 16796).ring.next 16796 ≠ 8 :=
  ⟨ring_inv_of_checks (by decide), by decide, ring_inv_of_checks (by decide), by decide⟩
/-- GrowthKeepsQueue: the wrapped rings of G1 and G5. -/
theorem witness_growth :
    RingInv (ringAt 2240 2200 1800).ring ∧ (ringAt 2240 2200 1800).ring.size < 16800 ∧
      RingInv (ringAt 15680 15600 15200).ring ∧ (ringAt 15680 15600 15200).ring.size < 16800 :=
  ⟨ring_inv_of_checks (by decide), by decide, ring_inv_of_checks (by decide), by decide⟩
/-- ShrinkKeepsQueue and PlayStartBeginsNewTune: H1, H3 and H4. -/
theorem witness_shrink :
    RingInv (ringAt 4480 400 800).ring ∧ RingInv (ringAt 4480 2000 100).ring ∧ RingInv (ringAt 4480 100 2240).ring ∧
      primaryFree (ringAt 4480 400 800) = true :=
  ⟨ring_inv_of_checks (by decide), ring_inv_of_checks (by decide), ring_inv_of_checks (by decide), by decide⟩
/-- PlayStartBeginsNewTune, PlayStopChangesNothing, SetBaseRateWritesBaseline, OtherChipFrameRaisesEstimate. -/
theorem witness_events :
    primaryFree onA = true ∧ (EventWord.bare 0).code = 0 ∧ (EventWord.bare 1).code = 1 ∧ (EventWord.bare 2).code = 2 ∧
      (1 : Ticks) ≠ 0 ∧ (1 : BitVec 2) ≠ 0 ∧ (3 : BitVec 2) ≠ 0 := by decide

/-- An arrival recorded at 240000, seen at `now`. -/
def arrived (now : Ticks) : State :=
  { ringAt 4480 0 0 with cyc := now, rate := { onA.rate with lastArrival := 240000, lastValid := true } }

/-- ChipZeroFrameTracksArrival: a gap, none at exactly 500 ms, and no arrival yet. -/
theorem witness_chip_zero :
    (Inv (arrived 740001) ∧ primaryFree (arrived 740001) = true ∧
      (ensureActive (arrived 740001)).rate.lastValid = true ∧
      (arrived 740001).par.clkHz / 2 < (740001 - (ensureActive (arrived 740001)).rate.lastArrival).toNat) ∧
    (Inv (arrived 740000) ∧ primaryFree (arrived 740000) = true ∧
      ¬(arrived 740000).par.clkHz / 2 < (740000 - (ensureActive (arrived 740000)).rate.lastArrival).toNat) ∧
    Inv onA ∧ primaryFree onA = true ∧ (ensureActive onA).rate.lastValid = false :=
  ⟨⟨inv_of_checks (by decide), by decide, by decide, by decide⟩, ⟨inv_of_checks (by decide), by decide, by decide⟩,
    onA_inv, by decide, by decide⟩
/-- EvenArrivalsGiveTheirSpacing: S3's spacing and the largest, with seven arrivals and with eight. -/
theorem witness_even :
    (List.replicate 7 (5 : Ticks)).length < 8 ∧ 7 * (20000 : Ticks).toNat < 2 ^ 32 ∧
      7 * (613566756 : Ticks).toNat < 2 ^ 32 ∧ 7 ≤ 8 ∧ 8 ≤ 8 := by decide
/-- EstimateFallsAfterThirtyFrames. -/
theorem witness_estimate : ({ onA with rate := { onA.rate with multiAge := 0 } } : State).rate.multiAge = 0 := rfl
/-- R203: a span of 140006 over seven, unevenly spaced and across the counter's wrap, rounded down. -/
theorem test_rate_of_uneven_arrivals :
    historyRate [0xFFFFFFFF, 1, 2, 3, 50000, 60000, 70000, 140005] = 20000 := by decide
/-- LowHeadroomGrowsOrCuts, EmergencyCutsStopAtThree: A16, A14 and A15, and a wrapped ring. -/
theorem witness_headroom :
    (2240 - 4 - (1792 - 0) < 448 ∧ 16800 - 4 - (16352 - 0) < 448 ∧ 448 ≤ 2240 - 4 - (1788 - 0)) ∧
    (RingInv (ringAt 2240 2200 1800).ring ∧ ¬2200 ≤ 1800 ∧ 2240 - 4 - (2240 - 2200 + 1800) < 448 ∧
      (ringAt 2240 2200 1800).ring.headroom = 396) ∧
    ((ringAt 2240 0 1792).ring.headroom < 448 ∧ (ringAt 2240 0 1792).ring.size < 16800) ∧
      ((ringAt 16800 0 16352).ring.headroom < 448 ∧ 16800 ≤ (ringAt 16800 0 16352).ring.size) ∧
      (ringAt 16800 0 16352).ring.size = 16800 ∧ 448 ≤ (ringAt 2240 0 1788).ring.headroom :=
  ⟨by decide, ⟨ring_inv_of_checks (by decide), by decide⟩, by decide⟩
/-- TargetIsNudgedByFill: A12, A18 and A11. -/
theorem witness_nudge :
    (RingInv (ringAt 16800 0 15288).ring ∧
        90 < (ringAt 16800 0 15288).ring.fill * 100 / (ringAt 16800 0 15288).ring.size) ∧
      (RingInv (ringAt 2240 0 52).ring ∧ (ringAt 2240 0 52).ring.fill < 56) ∧
      (RingInv (ringAt 16800 0 15120).ring ∧
        (ringAt 16800 0 15120).ring.fill * 100 / (ringAt 16800 0 15120).ring.size ≤ 90 ∧
        56 ≤ (ringAt 16800 0 15120).ring.fill) :=
  ⟨⟨ring_inv_of_checks (by decide), by decide⟩, ⟨ring_inv_of_checks (by decide), by decide⟩,
    ring_inv_of_checks (by decide), by decide, by decide⟩
/-- ClampKeepsTargetInBand: below, above, at both ends of the band of 20000, and no baseline. -/
theorem witness_clamp :
    (20000 : Nat) ≠ 0 ∧ 3332 < 20000 / 6 ∧ 20000 * 12 / 10 < 24001 ∧ 20000 / 6 ≤ 3333 ∧ 24000 ≤ 20000 * 12 / 10 ∧
      (0 : Nat) = 0 := by decide
/-- HysteresisIsStrict: differences of 51 and 50 on both sides; a timer before and at its reload. -/
theorem witness_hysteresis :
    onA.rate.correctedRate.toNat + 50 < 20051 ∧ 19949 + 50 < onA.rate.correctedRate.toNat ∧
      (20050 ≤ onA.rate.correctedRate.toNat + 50 ∧ onA.rate.correctedRate.toNat ≤ 20050 + 50) ∧ 20051 < 2 ^ 32 ∧
      (ringAt 2240 0 0).drain.active = true := by decide
/-- EmergencyCutsStopAtThree: at three, above it, and at one. -/
theorem witness_emergency :
    let s := fun r : Ticks => ({ onA with rate := { onA.rate with correctedRate := r } } : State)
    3 ≤ (s 3).rate.correctedRate.toNat ∧ 3 ≤ (s 20000).rate.correctedRate.toNat ∧
      (1 ≤ (s 1).rate.correctedRate.toNat ∧ (s 1).rate.correctedRate.toNat ≤ 3) := by decide
/-- TimerFiresEveryPeriod: torn down, and counting from 0. -/
theorem witness_timer :
    onA.drain.active = false ∧ (ringAt 2240 0 0).drain.active = true ∧ (ringAt 2240 0 0).drain.irqCnt = 0 ∧
      1 ≤ (ringAt 2240 0 0).drain.irqPeriod.toNat := by decide
/-- TimerStartsServiceThroughGate, HundredFirstIdleServiceTearsDown: D2, D1, and the hundredth and 101st services. -/
theorem witness_gate :
    (gateOpen (firing 116 0) = true ∧ 112 < (firing 116 0).ring.fill) ∧
      (gateOpen (firing 112 99) = true ∧ (firing 112 99).ring.fill ≤ 112 ∧ (firing 112 99).drain.idleCount < 100) ∧
      (gateOpen (firing 40 100) = true ∧ (firing 40 100).ring.fill ≤ 112 ∧ 100 ≤ (firing 40 100).drain.idleCount) ∧
      gateOpen onA = false := by decide
/-- RingEntryIsCycledWrite, StepRunsEntryAtReadCursor. -/
theorem witness_entry :
    entryReady serving = true ∧ dueEnv serving = none ∧ entryReady onA = false ∧ serving.pace.handler.headD 0 = 0 ∧
      ({ serving with pace := { primary := [], handler := [2] } } : State).pace.handler.headD 0 ≠ 0 :=
  ⟨by decide, rfl, by decide, rfl, by decide⟩
/-- ServiceDeliversOldestFrame. -/
theorem witness_service :
    Inv (firing 116 0) ∧ gateOpen (firing 116 0) = true ∧ (firing 116 0).resumed = false ∧
      (firing 116 0).inbox = [] ∧ (firing 116 0).pace.handler = [] ∧ 112 < (firing 116 0).ring.fill :=
  ⟨inv_of_checks (by decide), by decide, rfl, rfl, rfl, by decide⟩

/-- A firing at the open gate between two operations of a burst. -/
def firingInBurst : State := { firing 116 0 with prim := { todo := [.write 0 0], replyDue := false } }

/-- ServiceComesBetweenBurstOperations. -/
theorem witness_service_in_burst :
    Inv firingInBurst ∧ gateOpen firingInBurst = true ∧ firingInBurst.resumed = false ∧ firingInBurst.inbox = [] ∧
      firingInBurst.pace.handler = [] ∧ firingInBurst.pace.primary = [] ∧
      firingInBurst.prim.todo = .write 0 0 :: [] ∧ 112 < firingInBurst.ring.fill :=
  ⟨inv_of_checks (by decide), by decide, rfl, rfl, rfl, rfl, rfl, by decide⟩

/-- A word offered now. -/
def offered (c : Code) (s : State) : State := { s with inbox := [{ wait := 0, item := .code c }] }

/-- StepRunsDecodedWord: the gate closed; open with the primary context's turn; a word for no instruction. -/
theorem witness_word :
    (primaryFree (offered (.cmd [0xCC]) onA) = true ∧ gateOpen (offered (.cmd [0xCC]) onA) = false ∧
      decode onA.par (.cmd [0xCC]) = .ok .cmdMute) ∧
    (primaryFree (offered (.cmd [0xCC]) { firing 116 0 with resumed := true }) = true ∧
      (offered (.cmd [0xCC]) { firing 116 0 with resumed := true }).resumed = true) ∧
    decode onA.par (.cmd []) = .error .emptyBuffer := by decide
/-- StepServesGateFirst: no turn owed, and a turn owed with nothing to do. -/
theorem witness_gate_first :
    gateOpen (firing 116 0) = true ∧ (firing 116 0).resumed = false ∧
      gateOpen { firing 116 0 with resumed := true } = true ∧
      primaryHasStep { firing 116 0 with resumed := true } = false := by decide
/-- BusyStepIsBoundary: busy, and idle with the subsystem torn down and active. -/
theorem witness_busy_step :
    (quiet delaying = false ∧ dueEnv delaying = none) ∧
      (primaryFree onA = true ∧ gateOpen onA = false ∧ dueItem onA = none ∧ onA.drain.active = false) ∧
      primaryFree (ringAt 2240 0 0) = true ∧ gateOpen (ringAt 2240 0 0) = false ∧ dueItem (ringAt 2240 0 0) = none :=
  ⟨⟨by decide, rfl⟩, ⟨by decide, by decide, rfl, by decide⟩, by decide, by decide, rfl⟩
/-- CounterMovesByTicksOnly and StepKeepsInvariant. -/
theorem witness_step : Inv onA ∧ step onA = .next (boundary onA) := ⟨onA_inv, rfl⟩

/-- A routing swap requested now. -/
def swapping (s : State) : State := { s with inbox := [{ wait := 0, item := .env (.swap rtB) }] }

/-- RoutingSwapWaitsForIdle. -/
theorem witness_swap :
    (swapping onA).inbox = [{ wait := 0, item := .env (.swap rtB) }] ∧ busy (swapping delaying) = true ∧
      (swapping onA).seq.phase = .idle ∧ gateOpen (swapping onA) = false := by decide
/-- MaskIsHeldForSwapOnly: inside the section of a swap, which waits for the sequencer. -/
theorem witness_mask :
    let s := { swapping delaying with drain := { delaying.drain with irqMask := true } }
    MaskInv s ∧ s.drain.irqMask = true ∧ step s = .next (boundary s) := ⟨fun _ => ⟨0, rtB, [], rfl⟩, rfl, rfl⟩

/-- A clock change requested now. -/
def retuning (s : State) : State := { s with inbox := [{ wait := 0, item := .env (.setClock 985248) }] }

/-- ClockChangeKeepsState: it waits, and it happens. -/
theorem witness_clock :
    (retuning delaying).inbox = [{ wait := 0, item := .env (.setClock 985248) }] ∧ quiet (retuning delaying) = false ∧
      quiet (retuning onA) = true ∧ (retuning onA).drain.inService = false ∧ gateOpen (retuning onA) = false := by decide
/-- EncodingsDecodeBack and DecodedWordsAreWellFormed. -/
theorem witness_encoding :
    WellFormed par0 .cmdResetSid = true ∧ WellFormed par0 (.cmdUnassigned 0x1F) = true ∧
      decode par0 (.cmd [0xDF]) = .ok (.cmdUnassigned 0x1F) := by decide
/-- EveryBufferDecodesByClass: both ends of every class. -/
theorem witness_classes :
    (0x00#8).toNat / 64 = 0 ∧ (0x3F#8).toNat / 64 = 0 ∧ (0x40#8).toNat / 64 = 1 ∧ (0x7F#8).toNat / 64 = 1 ∧
      (0x80#8).toNat / 64 = 2 ∧ (0xBF#8).toNat / 64 = 2 ∧ (0xC0#8).toNat / 64 = 3 ∧ (0xFF#8).toNat / 64 = 3 := by decide

end Sys2Proof.Tests
end

-- ==== Resolve (20_memory.md R60, R61) ====
section
namespace Sys2Proof.Proofs.Routing

open Sys2Proof Sys2Proof.Machine

/-! ## The fields of a window index (R60) -/

/-- Bit 7 of an address is ignored. -/
theorem windowIndex_toNat (address : Byte) : (windowIndex address).toNat = address.toNat % 128 := by
  simp [windowIndex]

theorem slotOf_toNat (a7 : BitVec 7) : (slotOf a7).toNat = a7.toNat / 32 := by
  have h : a7.toNat / 32 < 4 := by have := a7.isLt; omega
  simpa [slotOf, Nat.shiftRight_eq_div_pow] using h

/-! ## The two legal masks (R24, R61) -/

theorem legalMask_eq_true_iff (m : Byte) : legalMask m = true ↔ m = 0x1F ∨ m = 0x3F := by
  simp [legalMask]

theorem legalMask_eq_false {m : Byte} (h₁ : m ≠ 0x1F) (h₂ : m ≠ 0x3F) : legalMask m = false :=
  Bool.eq_false_iff.2 fun h => ((legalMask_eq_true_iff m).1 h).elim h₁ h₂

/-- The address lines of a mask `2 ^ k - 1` are the index modulo `2 ^ k`, cut to six bits. -/
theorem addressLines_toNat_of_low_ones {k : Nat} {m : Byte} (a7 : BitVec 7) (hm : m.toNat = 2 ^ k - 1) :
    (addressLines a7 m).toNat = a7.toNat % 2 ^ k % 64 := by
  have hwide : a7.toNat % 256 = a7.toNat := Nat.mod_eq_of_lt (a7.isLt.trans (by decide))
  simp [addressLines, hm, hwide, Nat.and_two_pow_sub_one_eq_mod]

/-- The narrow mask clears A5 and lets the register offset through. -/
theorem addressLines_narrow (a7 : BitVec 7) : addressLines a7 0x1F = 0#1 ++ offsetOf a7 := by
  apply BitVec.eq_of_toNat_eq
  have hlines := addressLines_toNat_of_low_ones (k := 5) (m := 0x1F) a7 rfl
  have hoffset : (0#1 ++ offsetOf a7).toNat = a7.toNat % 32 :=
    (BitVec.toNat_append 0#1 (offsetOf a7)).trans (by simp [offsetOf])
  omega

/-- The wide mask lets the low bit of the slot through as A5. -/
theorem addressLines_wide (a7 : BitVec 7) : addressLines a7 0x3F = a7.extractLsb' 0 6 := by
  apply BitVec.eq_of_toNat_eq
  have hlines := addressLines_toNat_of_low_ones (k := 6) (m := 0x3F) a7 rfl
  simpa using hlines

/-! ## `Resolve`, one equation per outcome (R61) -/

section
variable {rt : RouteTable} {address : Byte}

theorem resolve_of_inactive (h : (rt.slot (slotOf (windowIndex address))).cs = 0) :
    resolve rt address = .skip .slotInactive := by
  obtain ⟨-, h'⟩ | ⟨hcs, -⟩ | ⟨hcs, -⟩ := resolve_cases rt address
  · exact h'
  · exact absurd h hcs
  · exact absurd h hcs

theorem resolve_of_malformed (hcs : (rt.slot (slotOf (windowIndex address))).cs ≠ 0)
    (hm : legalMask (rt.slot (slotOf (windowIndex address))).amask = false) :
    resolve rt address = .skip .slotMalformed := by
  obtain ⟨h, -⟩ | ⟨-, -, h'⟩ | ⟨-, h, -⟩ := resolve_cases rt address
  · exact absurd h hcs
  · exact h'
  · exact absurd (hm.symm.trans h) Bool.false_ne_true

theorem resolve_of_legal (hcs : (rt.slot (slotOf (windowIndex address))).cs ≠ 0)
    (hm : legalMask (rt.slot (slotOf (windowIndex address))).amask = true) :
    resolve rt address =
      .active (rt.slot (slotOf (windowIndex address))).cs
        (addressLines (windowIndex address) (rt.slot (slotOf (windowIndex address))).amask) (windowIndex address) := by
  obtain ⟨h, -⟩ | ⟨-, h, -⟩ | ⟨-, -, h'⟩ := resolve_cases rt address
  · exact absurd h hcs
  · exact absurd (h.symm.trans hm) Bool.false_ne_true
  · exact h'

end

/-- Settles O2: the arithmetic of the index and the slot, and `resolve`'s equation for each outcome with the address lines
of the two legal masks. -/
theorem resolveFollowsRoutingTable : Obligations.ResolveFollowsRoutingTable := by
  intro rt address
  refine ⟨windowIndex_toNat address, ?slot, resolve_of_inactive, ?malformed, ?narrow, ?wide⟩
  case slot => rw [slotOf_toNat, windowIndex_toNat]
  case malformed => exact fun hcs h₁ h₂ => resolve_of_malformed hcs (legalMask_eq_false h₁ h₂)
  case narrow =>
    intro hcs hm
    rw [resolve_of_legal hcs ((legalMask_eq_true_iff _).2 (.inl hm)), hm, addressLines_narrow]
  case wide =>
    intro hcs hm
    rw [resolve_of_legal hcs ((legalMask_eq_true_iff _).2 (.inr hm)), hm, addressLines_wide]

end Sys2Proof.Proofs.Routing
end

-- ==== Burst groups (30_encoding.md R92 to R94) ====
section
namespace Sys2Proof.Proofs.Bursts

open Sys2Proof Sys2Proof.Machine

/-! ## Byte 0 of a burst: its class and its count field (R91, R92) -/

/-- A buffer whose byte 0 is put together from the two fields decodes by those fields. -/
theorem decode_cmd_append (p : Config.Params) (cls : BitVec 2) (n : BitVec 6) (rest : List Byte) :
    decode p (.cmd ((cls ++ n) :: rest)) =
      if cls = 0b00 then .ok (.cmdWrite n rest)
      else if cls = 0b01 then .ok (.cmdRead rest.head?)
      else if cls = 0b10 then .ok (.cmdCycledWrite n rest)
      else .ok (decodeCommand p ((cls ++ n).extractLsb' 0 5) rest) := by
  have hcls : (cls ++ n).extractLsb' 6 2 = cls := BitVec.extractLsb'_append_eq_left
  have hcount : (cls ++ n).extractLsb' 0 6 = n := BitVec.extractLsb'_append_eq_right
  simp only [decode, decodeBuffer, hcls, hcount]

/-! ## The delay of a quad (R62, R94) -/

theorem joinDelay_toNat (hi lo : Byte) : (joinDelay hi lo).toNat = hi.toNat * 256 + lo.toNat := by
  rw [joinDelay, BitVec.toNat_append, ← Nat.shiftLeft_add_eq_or_of_lt lo.isLt, Nat.shiftLeft_eq]

/-! ## The wholly present groups of a byte list (R93, R94) -/

theorem pairsOf_length : ∀ bytes : List Byte, (pairsOf bytes).length = bytes.length / 2
  | [] | [_] => by simp [pairsOf]
  | _ :: _ :: rest => by
    have ih := pairsOf_length rest
    simp only [pairsOf, List.length_cons, ih]
    omega

theorem quadsOf_length : ∀ bytes : List Byte, (quadsOf bytes).length = bytes.length / 4
  | [] | [_] | [_, _] | [_, _, _] => by simp [quadsOf]
  | _ :: _ :: _ :: _ :: rest => by
    have ih := quadsOf_length rest
    simp only [quadsOf, List.length_cons, ih]
    omega

/-- Pair `i` is made of the bytes at `2i` and `2i + 1`. -/
theorem pairsOf_getElem? {bytes : List Byte} {i : Nat} {address data : Byte}
    (haddress : bytes[2 * i]? = some address) (hdata : bytes[2 * i + 1]? = some data) :
    (pairsOf bytes)[i]? = some (.write address data) := by
  induction i generalizing bytes with
  | zero =>
    match bytes with
    | [] | [_] => simp at hdata
    | _ :: _ :: _ => simp_all [pairsOf]
  | succ i ih =>
    match bytes with
    | [] | [_] => simp at hdata
    | _ :: _ :: rest => exact ih (bytes := rest) haddress hdata

/-- Quad `i` is made of the four bytes from `4i` on, the delay high byte first. -/
theorem quadsOf_getElem? {bytes : List Byte} {i : Nat} {address data hi lo : Byte}
    (haddress : bytes[4 * i]? = some address) (hdata : bytes[4 * i + 1]? = some data)
    (hhi : bytes[4 * i + 2]? = some hi) (hlo : bytes[4 * i + 3]? = some lo) :
    (quadsOf bytes)[i]? = some (.cycledWrite address data (joinDelay hi lo)) := by
  induction i generalizing bytes with
  | zero =>
    match bytes with
    | [] | [_] | [_, _] | [_, _, _] => simp at hlo
    | _ :: _ :: _ :: _ :: _ => simp_all [quadsOf]
  | succ i ih =>
    match bytes with
    | [] | [_] | [_, _] | [_, _, _] => simp at hlo
    | _ :: _ :: _ :: _ :: rest => exact ih (bytes := rest) haddress hdata hhi hlo

/-! ## The bursts: the groups asked for, cut off at the end of the buffer (R151, R153) -/

theorem writeBurst_length (n : BitVec 6) (operands : List Byte) :
    (writeBurst n operands).length = min (groupCount n 2) (operands.length / 2) := by
  rw [writeBurst, List.length_take, pairsOf_length]

theorem cycledWriteBurst_length (n : BitVec 6) (operands : List Byte) :
    (cycledWriteBurst n operands).length = min (groupCount n 4) (operands.length / 4) := by
  rw [cycledWriteBurst, List.length_take, quadsOf_length]

theorem writeBurst_getElem? {n : BitVec 6} {i : Nat} (operands : List Byte) (hasked : i < groupCount n 2) :
    (writeBurst n operands)[i]? = (pairsOf operands)[i]? := by
  rw [writeBurst, List.getElem?_take_of_lt hasked]

theorem cycledWriteBurst_getElem? {n : BitVec 6} {i : Nat} (operands : List Byte) (hasked : i < groupCount n 4) :
    (cycledWriteBurst n operands)[i]? = (quadsOf operands)[i]? := by
  rw [cycledWriteBurst, List.getElem?_take_of_lt hasked]

/-- Settles O12: the decoding of byte 0 by its fields, and each burst as the first groups of its operands, of which the
count and the bytes are known by induction on the groups. -/
theorem burstGroupsFollowCount : Obligations.BurstGroupsFollowCount := by
  intro p n operands
  refine ⟨decode_cmd_append p 0b00 n operands, decode_cmd_append p 0b10 n operands, writeBurst_length n operands, ?pair,
    cycledWriteBurst_length n operands, ?quad⟩
  case pair =>
    intro i address data hasked haddress hdata
    exact (writeBurst_getElem? operands hasked).trans (pairsOf_getElem? haddress hdata)
  case quad =>
    intro i address data hi lo hasked haddress hdata hhi hlo
    exact ⟨joinDelay hi lo, joinDelay_toNat hi lo,
      (cycledWriteBurst_getElem? operands hasked).trans (quadsOf_getElem? haddress hdata hhi hlo)⟩

end Sys2Proof.Proofs.Bursts
end

-- ==== The sequencer over several ticks (40_bus_operations.md R127 to R129) ====
section
namespace Sys2Proof.Proofs.Flight

open Sys2Proof Sys2Proof.Machine

/-! ## The end of a transfer, one equation per direction (R127) -/

theorem endXfer_write {s : State} (h : s.seq.rw = false) :
    endXfer s = { s with pins := Pins.idle, seq := { s.seq with phase := .idle } } := by
  simp [endXfer, h]

theorem endXfer_read {s : State} {v : Byte} (h : s.seq.rw = true)
    (hv : Config.busRead s.reads s.seq.tstart s.seq.cs s.seq.a = v) :
    endXfer s =
      { s with
        trace := s.trace ++ [.read s.seq.tstart s.seq.cs s.seq.a v], result := v, resultValid := true,
        shadow := shadowStore s.shadow s.seq.sidx v, reads := s.reads + 1,
        pins := Pins.idle, seq := { s.seq with phase := .idle } } := by
  simp [endXfer, h, hv]

/-! ## The sequencer does not see what else a boundary moves -/

/-- `s`, with the state items that a boundary moves outside the sequencer and the counter taken from `e`. -/
def withSurroundings (s e : State) : State :=
  { s with resLeft := e.resLeft, drain := e.drain, resumed := e.resumed, inbox := e.inbox, pace := e.pace }

theorem endXfer_withSurroundings (s e : State) : endXfer (withSurroundings s e) = withSurroundings (endXfer s) e := by
  cases hrw : s.seq.rw
  · rw [endXfer_write hrw, endXfer_write (s := withSurroundings s e) hrw]; rfl
  · rw [endXfer_read hrw rfl, endXfer_read (s := withSurroundings s e) hrw rfl]; rfl

theorem advanceSeq_withSurroundings (s e : State) :
    advanceSeq (withSurroundings s e) = withSurroundings (advanceSeq s) e := by
  cases hphase : s.seq.phase
  case idle => rw [advanceSeq_idle hphase, advanceSeq_idle (s := withSurroundings s e) hphase]
  case delay =>
    by_cases hlast : s.seq.dly - 1 = 0
    · rw [advanceSeq_delay_last hphase hlast, advanceSeq_delay_last (s := withSurroundings s e) hphase hlast]
      rw [apply_ite (withSurroundings · e)]; rfl
    · rw [advanceSeq_delay hphase hlast, advanceSeq_delay (s := withSurroundings s e) hphase hlast]; rfl
  case xfer =>
    by_cases hlast : s.seq.xcnt - 1 = 0
    · rw [advanceSeq_xfer_last hphase hlast, advanceSeq_xfer_last (s := withSurroundings s e) hphase hlast]
      exact endXfer_withSurroundings { s with seq := { s.seq with xcnt := s.seq.xcnt - 1 } } e
    · rw [advanceSeq_xfer hphase hlast, advanceSeq_xfer (s := withSurroundings s e) hphase hlast]; rfl

theorem timerTick_countTick (s : State) :
    timerTick (countTick s) = withSurroundings { s with cyc := s.cyc + 1 } (timerTick (countTick s)) := by
  unfold timerTick
  split
  · split <;> rfl
  · rfl

/-! ## Runs of the sequencer with no request waiting -/

theorem seqStep_of_no_request {s : State} (h : s.req.valid = false) :
    seqStep s = advanceSeq { s with cyc := s.cyc + 1 } :=
  seqTick_of_no_request h

theorem seqStep_withSurroundings {s : State} (h : s.req.valid = false) (e : State) :
    seqStep (withSurroundings s e) = withSurroundings (seqStep s) e := by
  rw [seqStep_of_no_request h, seqStep_of_no_request (s := withSurroundings s e) h]
  exact advanceSeq_withSurroundings { s with cyc := s.cyc + 1 } e

/-- A boundary is a tick of the counter and the sequencer, with the timer and the waits beside it. -/
theorem boundary_eq_seqStep {s : State} (h : s.req.valid = false) :
    boundary s = withSurroundings (seqStep s) (timerTick (countTick s)) := by
  have hreq : (timerTick (countTick s)).req.valid = false := by simpa using h
  calc boundary s = advanceSeq (timerTick (countTick s)) := seqTick_of_no_request hreq
    _ = advanceSeq (withSurroundings { s with cyc := s.cyc + 1 } (timerTick (countTick s))) :=
      congrArg advanceSeq (timerTick_countTick s)
    _ = withSurroundings (seqStep s) (timerTick (countTick s)) := by
      rw [advanceSeq_withSurroundings, seqStep_of_no_request h]

theorem seqRun_add (m k : Nat) (s : State) : seqRun (m + k) s = seqRun k (seqRun m s) := by
  induction m generalizing s with
  | zero => rw [Nat.zero_add, seqRun]
  | succ m ih => rw [Nat.succ_add, seqRun, ih, seqRun]

theorem seqRun_succ (k : Nat) (s : State) : seqRun (k + 1) s = seqStep (seqRun k s) := seqRun_add k 1 s

theorem ticks_succ (k : Nat) (s : State) : ticks (k + 1) s = boundary (ticks k s) := by
  induction k generalizing s with
  | zero => rfl
  | succ k ih => exact ih (boundary s)

theorem seqRun_req {s : State} (h : s.req.valid = false) (k : Nat) : (seqRun k s).req = s.req := by
  induction k with
  | zero => rfl
  | succ k ih =>
    rw [seqRun_succ, seqStep_of_no_request (by rw [ih, h])]
    simpa using ih

theorem ticks_eq_seqRun {s : State} (h : s.req.valid = false) (k : Nat) :
    ticks k s = withSurroundings (seqRun k s) (ticks k s) := by
  induction k with
  | zero => rfl
  | succ k ih =>
    have hreq : (seqRun k s).req.valid = false := by rw [seqRun_req h, h]
    rw [ticks_succ, seqRun_succ, ih, boundary_eq_seqStep (s := withSurroundings _ (ticks k s)) hreq,
      seqStep_withSurroundings hreq]
    rfl

/-- What a claim about boundaries says of the sequencer's items it may say of the sequencer's ticks alone. -/
theorem ticks_sequencer {s : State} (h : s.req.valid = false) (k : Nat) :
    (ticks k s).seq = (seqRun k s).seq ∧ (ticks k s).pins = (seqRun k s).pins ∧
    (ticks k s).result = (seqRun k s).result ∧ (ticks k s).resultValid = (seqRun k s).resultValid ∧
    (ticks k s).shadow = (seqRun k s).shadow ∧ (ticks k s).trace = (seqRun k s).trace := by
  rw [ticks_eq_seqRun h k]
  exact ⟨rfl, rfl, rfl, rfl, rfl, rfl⟩

@[simp] theorem ticks_cyc (k : Nat) (s : State) : (ticks k s).cyc = s.cyc + BitVec.ofNat 32 k := by
  induction k with
  | zero => simp [ticks]
  | succ k ih => simp [ticks_succ, ih, BitVec.ofNat_add, BitVec.add_assoc]

/-- No tick writes the routing table or the mute flag. -/
@[simp] theorem ticks_settings (k : Nat) (s : State) : (ticks k s).rt = s.rt ∧ (ticks k s).mute = s.mute := by
  induction k with
  | zero => exact ⟨rfl, rfl⟩
  | succ k ih => simpa [ticks_succ] using ih

/-! ## The delay stage (R129) -/

/-- `s`, `k` ticks further into its delay. -/
def delayed (k : Nat) (s : State) : State :=
  { s with cyc := s.cyc + BitVec.ofNat 32 k, seq := { s.seq with dly := s.seq.dly - BitVec.ofNat 16 k } }

theorem delayed_zero (s : State) : delayed 0 s = s := by simp [delayed]

theorem delayed_succ (k : Nat) (s : State) :
    delayed (k + 1) s =
      { delayed k s with
        cyc := (delayed k s).cyc + 1, seq := { (delayed k s).seq with dly := (delayed k s).seq.dly - 1 } } := by
  simp [delayed, BitVec.ofNat_add, BitVec.add_assoc, BitVec.sub_sub]

/-- The last tick of the delay is the one that spends it. -/
theorem delayed_spent_iff {s : State} {k : Nat} (hk : k < s.seq.dly.toNat) :
    (delayed k s).seq.dly - 1 = 0 ↔ k + 1 = s.seq.dly.toNat := by
  show s.seq.dly - BitVec.ofNat 16 k - 1 = 0 ↔ _
  have := s.seq.dly.isLt
  bv_omega

theorem seqRun_delay {s : State} {k : Nat} (hphase : s.seq.phase = .delay) (hreq : s.req.valid = false)
    (hk : k < s.seq.dly.toNat) : seqRun k s = delayed k s := by
  induction k with
  | zero => exact (delayed_zero s).symm
  | succ k ih =>
    have hleft : (delayed k s).seq.dly - 1 ≠ 0 := fun h => by
      have := (delayed_spent_iff (by omega)).1 h
      omega
    rw [seqRun_succ, ih (by omega), seqStep_of_no_request (s := delayed k s) hreq,
      advanceSeq_delay (s := { delayed k s with cyc := (delayed k s).cyc + 1 }) hphase hleft, delayed_succ]

/-- At the end of its delay a `BUS_CYCLED_DELAY` is over, and any other operation enters its transfer. -/
theorem seqRun_delay_end {s : State} (hphase : s.seq.phase = .delay) (hreq : s.req.valid = false)
    (hpos : s.seq.dly ≠ 0) :
    let u := delayed s.seq.dly.toNat s
    seqRun s.seq.dly.toNat s =
      if s.seq.op = .cycledDelay then { u with seq := { u.seq with phase := .idle } } else enterXfer u := by
  obtain ⟨k, hk⟩ : ∃ k, s.seq.dly.toNat = k + 1 := by
    refine Nat.exists_eq_succ_of_ne_zero fun h => hpos (BitVec.eq_of_toNat_eq h)
  have hlast := (delayed_spent_iff (s := s) (k := k) (by omega)).2 hk.symm
  rw [hk, seqRun_succ, seqRun_delay hphase hreq (by omega), seqStep_of_no_request (s := delayed k s) hreq,
    advanceSeq_delay_last (s := { delayed k s with cyc := (delayed k s).cyc + 1 }) hphase hlast, delayed_succ]
  rfl

/-! ## The transfer stage (R127, R128) -/

/-- `s`, `k` ticks further into its transfer. -/
def transferring (k : Nat) (s : State) : State :=
  { s with cyc := s.cyc + BitVec.ofNat 32 k, seq := { s.seq with xcnt := s.seq.xcnt - k } }

theorem transferring_zero (s : State) : transferring 0 s = s := by simp [transferring]

theorem transferring_succ (k : Nat) (s : State) :
    transferring (k + 1) s =
      { transferring k s with
        cyc := (transferring k s).cyc + 1
        seq := { (transferring k s).seq with xcnt := (transferring k s).seq.xcnt - 1 } } := by
  simp [transferring, BitVec.ofNat_add, BitVec.add_assoc, Nat.sub_sub]

theorem seqRun_xfer {s : State} {k : Nat} (hphase : s.seq.phase = .xfer) (hreq : s.req.valid = false)
    (hk : k < s.seq.xcnt) : seqRun k s = transferring k s := by
  induction k with
  | zero => exact (transferring_zero s).symm
  | succ k ih =>
    have hleft : (transferring k s).seq.xcnt - 1 ≠ 0 := by simp only [transferring]; omega
    rw [seqRun_succ, ih (by omega), seqStep_of_no_request (s := transferring k s) hreq,
      advanceSeq_xfer (s := { transferring k s with cyc := (transferring k s).cyc + 1 }) hphase hleft,
      transferring_succ]

theorem seqRun_xfer_end {s : State} (hphase : s.seq.phase = .xfer) (hreq : s.req.valid = false)
    (hpos : 1 ≤ s.seq.xcnt) : seqRun s.seq.xcnt s = endXfer (transferring s.seq.xcnt s) := by
  obtain ⟨k, hk⟩ := Nat.exists_eq_add_of_le' hpos
  have hlast : (transferring k s).seq.xcnt - 1 = 0 := by simp only [transferring]; omega
  rw [hk, seqRun_succ, seqRun_xfer hphase hreq (by omega), seqStep_of_no_request (s := transferring k s) hreq,
    advanceSeq_xfer_last (s := { transferring k s with cyc := (transferring k s).cyc + 1 }) hphase hlast,
    transferring_succ]

end Sys2Proof.Proofs.Flight
end

-- ==== The four bus operations (40_bus_operations.md R122 to R125) ====
section
namespace Sys2Proof.Proofs.BusOperations

open Sys2Proof Sys2Proof.Machine Sys2Proof.Proofs.Flight

/-! ## A request taken at once (R126, R127) -/

/-- `s` with the request `r` taken off the port, before `Accept` looks at its operation. -/
def taken (r : BusRequest) (s : State) : State :=
  let t := writeRequest r s
  { t with req := { t.req with valid := false }, resultValid := false, seq := { t.seq with op := t.req.op } }

/-- What every accepted operation starts from: nothing waits, the sequencer is idle, a transfer takes a tick. -/
structure Ready (s : State) : Prop where
  no_request : s.req.valid = false
  idle : s.seq.phase = .idle
  idle_pins : s.pins = Pins.idle
  xfer_pos : 1 ≤ s.par.tXfer

theorem ready_taken {s : State} (hinv : Inv s) (hfree : primaryFree s = true) (r : BusRequest) :
    Ready (taken r s) where
  no_request := rfl
  idle := by simpa [taken] using ((primaryFree_iff s).1 hfree).2.1
  idle_pins := by simpa [taken] using hinv.seq.idle_pins ((primaryFree_iff s).1 hfree).2.1
  xfer_pos := by
    have hok := hinv.par_ok
    simp only [Config.Params.ok, Bool.and_eq_true, decide_eq_true_eq] at hok
    simpa [taken] using hok.1.1.1

section
variable {s : State} (h : s.seq.phase = .idle)
include h

theorem present_write (address data : Byte) :
    present (.write address data) s = acceptWrite 0 (taken (.write address data) s) :=
  present_of_idle _ h

theorem present_cycledWrite (address data : Byte) (n : Cycles) :
    present (.cycledWrite address data n) s = acceptWrite n (taken (.cycledWrite address data n) s) :=
  present_of_idle _ h

theorem present_cycledRead (address : Byte) (n : Cycles) :
    present (.cycledRead address n) s = acceptRead (taken (.cycledRead address n) s) :=
  present_of_idle _ h

theorem present_cycledDelay (n : Cycles) :
    present (.cycledDelay n) s = acceptDelay (taken (.cycledDelay n) s) :=
  present_of_idle _ h

end

/-! ## Acceptance by what the address resolves to (R120, R127) -/

/-- The latches and the shadow byte of an accepted write. -/
def latchWrite (cs : BitVec 2) (a : BitVec 6) (sidx : BitVec 7) (s : State) : State :=
  { s with
    shadow := shadowStore s.shadow sidx s.req.data
    seq := { s.seq with cs := cs, a := a, sidx := sidx, rw := false, d := muteFilter s.mute sidx s.req.data } }

/-- The latches of an accepted read. -/
def latchRead (cs : BitVec 2) (a : BitVec 6) (sidx : BitVec 7) (s : State) : State :=
  { s with seq := { s.seq with cs := cs, a := a, sidx := sidx, rw := true } }

section
variable {s : State} {reason : SkipReason} {cs : BitVec 2} {a : BitVec 6} {sidx : BitVec 7}

theorem acceptWrite_skip (n : Cycles) (h : resolve s.rt s.req.addr = .skip reason) : acceptWrite n s = s := by
  simp [acceptWrite, h]

theorem acceptWrite_active (n : Cycles) (h : resolve s.rt s.req.addr = .active cs a sidx) :
    acceptWrite n s = startTransfer n (latchWrite cs a sidx s) := by
  simp [acceptWrite, latchWrite, h]

theorem acceptRead_skip (h : resolve s.rt s.req.addr = .skip reason) :
    acceptRead s = { s with result := 0, resultValid := true } := by
  simp [acceptRead, h]

theorem acceptRead_active (h : resolve s.rt s.req.addr = .active cs a sidx) :
    acceptRead s = startTransfer s.req.cycles (latchRead cs a sidx s) := by
  simp [acceptRead, latchRead, h]

end

/-! ## A started transfer, tick by tick (R127 to R129, R134) -/

/-- `s` with `n` ticks of delay to wait. -/
def startDelay (n : Cycles) (s : State) : State := { s with seq := { s.seq with phase := .delay, dly := n } }

/-- `s` at the first tick of a transfer that waited `n` ticks, before `EnterXfer`. -/
def waited (n : Cycles) (s : State) : State :=
  { s with
    cyc := s.cyc + BitVec.ofNat 32 n.toNat
    seq := { s.seq with dly := if n = 0 then s.seq.dly else 0 } }

section
variable {s : State} {n : Cycles} {k : Nat}

theorem seqRun_startTransfer_delay (hs : Ready s) (hk : k < n.toNat) :
    seqRun k (startTransfer n s) = delayed k (startDelay n s) := by
  have hn : n ≠ 0 := by rintro rfl; exact absurd hk (Nat.not_lt_zero k)
  rw [startTransfer_delay hn]
  exact seqRun_delay (s := startDelay n s) rfl hs.no_request hk

theorem seqRun_startTransfer_enter (hs : Ready s) (hop : s.seq.op ≠ .cycledDelay) :
    seqRun n.toNat (startTransfer n s) = enterXfer (waited n s) := by
  obtain rfl | hn := eq_or_ne n 0
  · rw [startTransfer_zero]
    simp [waited, seqRun]
  · have hend : seqRun n.toNat (startDelay n s) = enterXfer (delayed n.toNat (startDelay n s)) :=
      (seqRun_delay_end (s := startDelay n s) rfl hs.no_request hn).trans (if_neg hop)
    rw [startTransfer_delay hn, waited, if_neg hn]
    exact hend.trans (by simp [enterXfer, delayed, startDelay, Pins.ofSeq])

theorem seqRun_startTransfer_xfer (hs : Ready s) (hop : s.seq.op ≠ .cycledDelay) (hk : k < s.par.tXfer) :
    seqRun (n.toNat + k) (startTransfer n s) = transferring k (enterXfer (waited n s)) := by
  rw [seqRun_add, seqRun_startTransfer_enter hs hop]
  exact seqRun_xfer rfl hs.no_request hk

theorem seqRun_startTransfer_end (hs : Ready s) (hop : s.seq.op ≠ .cycledDelay) :
    seqRun (n.toNat + s.par.tXfer) (startTransfer n s) =
      endXfer (transferring s.par.tXfer (enterXfer (waited n s))) := by
  rw [seqRun_add, seqRun_startTransfer_enter hs hop]
  exact seqRun_xfer_end (s := enterXfer (waited n s)) rfl hs.no_request hs.xfer_pos

theorem startTransfer_no_request (hs : Ready s) : (startTransfer n s).req.valid = false := by
  simpa using hs.no_request

theorem startTransfer_timeline (hs : Ready s) (hop : s.seq.op ≠ .cycledDelay) :
    Timeline (startTransfer n s) n.toNat s.par.tXfer (Pins.ofSeq s.seq) := by
  have hticks := ticks_sequencer (startTransfer_no_request (n := n) hs)
  refine ⟨fun k hk => ?delay, fun k hle hlt => ?xfer, ?done⟩
  case delay =>
    obtain ⟨hseq, hpins, -⟩ := hticks k
    rw [hseq, hpins, seqRun_startTransfer_delay hs hk]
    exact ⟨rfl, hs.idle_pins⟩
  case xfer =>
    obtain ⟨j, rfl⟩ := Nat.exists_eq_add_of_le hle
    obtain ⟨hseq, hpins, -⟩ := hticks (n.toNat + j)
    rw [hseq, hpins, seqRun_startTransfer_xfer hs hop (by omega)]
    exact ⟨rfl, rfl⟩
  case done =>
    obtain ⟨hseq, hpins, -⟩ := hticks (n.toNat + s.par.tXfer)
    rw [hseq, hpins, seqRun_startTransfer_end hs hop]
    simp

/-- Until its last tick a transfer leaves the result and the shadow, and emits at most a write's event. -/
theorem ticks_startTransfer_before_end (hs : Ready s) (hop : s.seq.op ≠ .cycledDelay)
    (hk : k < n.toNat + s.par.tXfer) :
    let t := ticks k (startTransfer n s)
    t.resultValid = s.resultValid ∧ t.result = s.result ∧ t.shadow = s.shadow ∧
      t.trace = if k < n.toNat then s.trace else (enterXfer (waited n s)).trace := by
  obtain ⟨-, -, hresult, hvalid, hshadow, htrace⟩ := ticks_sequencer (startTransfer_no_request (n := n) hs) k
  intro t
  rw [hresult, hvalid, hshadow, htrace]
  by_cases hdelay : k < n.toNat
  · rw [seqRun_startTransfer_delay hs hdelay, if_pos hdelay]
    exact ⟨rfl, rfl, rfl, rfl⟩
  · obtain ⟨j, rfl⟩ := Nat.exists_eq_add_of_le (Nat.not_lt.1 hdelay)
    rw [seqRun_startTransfer_xfer hs hop (by omega), if_neg hdelay]
    exact ⟨rfl, rfl, rfl, rfl⟩

end

/-- The shadow after one store, as the claims put it. -/
theorem shadowByte_store {m : Memory} (hm : shadowWf m = true) (i j : BitVec 7) (v : Byte) :
    shadowByte (shadowStore m i v) j = if j = i then v else shadowByte m j := by
  split
  · next h => rw [h, shadowByte_store_same hm]
  · next h => exact shadowByte_store_other m v h

/-! ## Writes (R122, R123) -/

section
variable {s : State} {n : Cycles} {cs : BitVec 2} {a : BitVec 6} {sidx : BitVec 7}

theorem ready_latchWrite (hs : Ready s) : Ready (latchWrite cs a sidx s) :=
  ⟨hs.no_request, hs.idle, hs.idle_pins, hs.xfer_pos⟩

theorem write_frame (r : BusRequest) (s : State) :
    SameOutsideSequencer
      { startTransfer n (latchWrite cs a sidx (taken r s)) with shadow := s.shadow, trace := s.trace, pins := s.pins }
      s := by
  unfold startTransfer
  split <;> cases r <;> rfl

theorem write_timeline (hs : Ready s) (hop : s.seq.op ≠ .cycledDelay) :
    Timeline (startTransfer n (latchWrite cs a sidx s)) n.toNat s.par.tXfer
      (writePins cs a (sentByte s.mute sidx s.req.data)) := by
  rw [sentByte_eq]
  exact startTransfer_timeline (ready_latchWrite hs) hop

/-- The write's event comes with the first tick of its transfer, and nothing else is recorded. -/
theorem write_ticks (hs : Ready s) (hop : s.seq.op ≠ .cycledDelay) {k : Nat} (hk : k ≤ n.toNat + s.par.tXfer) :
    let t := startTransfer n (latchWrite cs a sidx s)
    (ticks k t).shadow = t.shadow ∧
      (ticks k t).trace =
        if k < n.toNat then s.trace
        else s.trace ++ [.write (s.cyc + BitVec.ofNat 32 n.toNat) cs a (sentByte s.mute sidx s.req.data)] := by
  intro t
  have hready : Ready (latchWrite cs a sidx s) := ready_latchWrite hs
  have hshadow : t.shadow = (latchWrite cs a sidx s).shadow := by simp [t]
  rw [hshadow, sentByte_eq]
  obtain hlt | rfl := Nat.lt_or_eq_of_le hk
  · obtain ⟨-, -, hticks⟩ := ticks_startTransfer_before_end (n := n) hready hop hlt
    exact hticks
  · obtain ⟨-, -, -, -, hend, htrace⟩ :=
      ticks_sequencer (startTransfer_no_request (n := n) hready) (n.toNat + s.par.tXfer)
    have hrun : seqRun (n.toNat + s.par.tXfer) t = _ :=
      (seqRun_startTransfer_end hready hop).trans (endXfer_write rfl)
    rw [hend, htrace, hrun, if_neg (Nat.not_lt.2 (Nat.le_add_right _ _))]
    exact ⟨rfl, rfl⟩

theorem write_shadowByte (hwf : shadowWf s.shadow = true) (j : BitVec 7) :
    shadowByte (startTransfer n (latchWrite cs a sidx s)).shadow j =
      if j = sidx then s.req.data else shadowByte s.shadow j := by
  have hshadow : (startTransfer n (latchWrite cs a sidx s)).shadow = shadowStore s.shadow sidx s.req.data := by
    simp [latchWrite]
  rw [hshadow, shadowByte_store hwf]

end

/-- Settles O3: acceptance by what the address resolves to, then the write's ticks with no delay. -/
theorem busWriteCompletes : Obligations.BusWriteCompletes := by
  refine ⟨fun p w hop => by simp [decode, decodeRequest, BusOp.ofCode, hop], fun s address data hinv hfree => ?_⟩
  have hready := ready_taken hinv hfree (.write address data)
  have hop : (taken (.write address data) s).seq.op ≠ .cycledDelay := nofun
  refine ⟨_, byRequester_of_free hfree, ?_⟩
  rw [present_write ((primaryFree_iff s).1 hfree).2.1]
  cases hres : resolve s.rt address with
  | skip reason =>
    rw [acceptWrite_skip (s := taken (.write address data) s) 0 hres]
    exact ⟨rfl, hready.idle, rfl⟩
  | active cs a sidx =>
    rw [acceptWrite_active (s := taken (.write address data) s) 0 hres]
    have hticks {k : Nat} (hk : k ≤ s.par.tXfer) :=
      write_ticks (n := 0) (cs := cs) (a := a) (sidx := sidx) (k := k) hready hop ((Nat.zero_add _).symm ▸ hk)
    obtain ⟨-, haccept⟩ := hticks (Nat.zero_le _)
    refine ⟨by simp [latchWrite, taken], write_frame _ s, write_shadowByte hinv.shadow_wf, ?trace,
      write_timeline hready hop, ?cyc, ?ticks⟩
    case trace => exact haccept.trans (by simp [taken, writeRequest])
    case cyc => simp [latchWrite, taken, writeRequest]
    case ticks =>
      intro k hk
      exact ⟨(hticks hk).2.trans haccept.symm, (hticks hk).1⟩

/-- Settles O4: as for O3, the transfer starting `cycles` ticks later. -/
theorem busCycledWriteCompletes : Obligations.BusCycledWriteCompletes := by
  refine ⟨fun p w hop => by simp [decode, decodeRequest, BusOp.ofCode, hop],
    fun s address data cycles hinv hfree => ?_⟩
  have hready := ready_taken hinv hfree (.cycledWrite address data cycles)
  have hop : (taken (.cycledWrite address data cycles) s).seq.op ≠ .cycledDelay := nofun
  refine ⟨_, byRequester_of_free hfree, ?_⟩
  rw [present_cycledWrite ((primaryFree_iff s).1 hfree).2.1]
  cases hres : resolve s.rt address with
  | skip reason =>
    rw [acceptWrite_skip (s := taken (.cycledWrite address data cycles) s) cycles hres]
    exact ⟨rfl, hready.idle, rfl⟩
  | active cs a sidx =>
    rw [acceptWrite_active (s := taken (.cycledWrite address data cycles) s) cycles hres]
    exact ⟨by simp [latchWrite, taken], write_frame _ s, write_shadowByte hinv.shadow_wf, write_timeline hready hop,
      fun k hk => write_ticks hready hop hk⟩

/-! ## Reads (R124) -/

section
variable {s : State} {n : Cycles} {cs : BitVec 2} {a : BitVec 6} {sidx : BitVec 7}

theorem ready_latchRead (hs : Ready s) : Ready (latchRead cs a sidx s) :=
  ⟨hs.no_request, hs.idle, hs.idle_pins, hs.xfer_pos⟩

theorem read_frame (r : BusRequest) (s : State) :
    SameOutsideSequencer { startTransfer n (latchRead cs a sidx (taken r s)) with pins := s.pins } s := by
  unfold startTransfer
  split <;> cases r <;> rfl

theorem read_timeline (hs : Ready s) (hop : s.seq.op ≠ .cycledDelay) :
    Timeline (startTransfer n (latchRead cs a sidx s)) n.toNat s.par.tXfer (readPins cs a) :=
  startTransfer_timeline (ready_latchRead hs) hop

theorem read_ticks_before_end (hs : Ready s) (hop : s.seq.op ≠ .cycledDelay) {k : Nat}
    (hk : k < n.toNat + s.par.tXfer) :
    let t := ticks k (startTransfer n (latchRead cs a sidx s))
    t.resultValid = s.resultValid ∧ t.result = s.result ∧ t.trace = s.trace ∧ t.shadow = s.shadow := by
  obtain ⟨hvalid, hresult, hshadow, htrace⟩ :=
    ticks_startTransfer_before_end (n := n) (ready_latchRead (cs := cs) (a := a) (sidx := sidx) hs) hop hk
  exact ⟨hvalid, hresult, htrace.trans (ite_self _), hshadow⟩

/-- At its end a read has put the byte the chips answered in the result, the trace and the shadow. -/
theorem read_end (hs : Ready s) (hop : s.seq.op ≠ .cycledDelay) :
    let u := ticks (n.toNat + s.par.tXfer) (startTransfer n (latchRead cs a sidx s))
    let v := Config.busRead s.reads (s.cyc + BitVec.ofNat 32 n.toNat) cs a
    u.result = v ∧ u.resultValid = true ∧
      u.trace = s.trace ++ [.read (s.cyc + BitVec.ofNat 32 n.toNat) cs a v] ∧
      u.shadow = shadowStore s.shadow sidx v := by
  have hready : Ready (latchRead cs a sidx s) := ready_latchRead hs
  have hrun : seqRun (n.toNat + s.par.tXfer) (startTransfer n (latchRead cs a sidx s)) = _ :=
    (seqRun_startTransfer_end hready hop).trans (endXfer_read rfl rfl)
  obtain ⟨-, -, hresult, hvalid, hshadow, htrace⟩ :=
    ticks_sequencer (startTransfer_no_request (n := n) hready) (n.toNat + s.par.tXfer)
  intro u v
  rw [hresult, hvalid, hshadow, htrace, hrun]
  exact ⟨rfl, rfl, rfl, rfl⟩

end

/-- Settles O5: a skipped read answers 0 at acceptance; an active one by its ticks, the last of which takes the byte. -/
theorem busCycledReadCompletes : Obligations.BusCycledReadCompletes := by
  refine ⟨fun p w hop => by simp [decode, decodeRequest, BusOp.ofCode, hop], fun s address cycles hinv hfree => ?_⟩
  have hready := ready_taken hinv hfree (.cycledRead address cycles)
  have hop : (taken (.cycledRead address cycles) s).seq.op ≠ .cycledDelay := nofun
  refine ⟨_, byRequester_of_free hfree, ?_⟩
  rw [present_cycledRead ((primaryFree_iff s).1 hfree).2.1]
  cases hres : resolve s.rt address with
  | skip reason =>
    rw [acceptRead_skip (s := taken (.cycledRead address cycles) s) hres]
    exact ⟨rfl, rfl, hready.idle, rfl⟩
  | active cs a sidx =>
    rw [acceptRead_active (s := taken (.cycledRead address cycles) s) hres]
    obtain ⟨hresult, hvalid, htrace, hshadow⟩ :=
      read_end (n := cycles) (cs := cs) (a := a) (sidx := sidx) hready hop
    refine ⟨read_frame _ s, read_timeline hready hop, fun k hk => read_ticks_before_end hready hop hk,
      hresult, hvalid, htrace, fun j => ?shadow⟩
    case shadow => exact (congrArg (shadowByte · j) hshadow).trans (shadowByte_store hinv.shadow_wf sidx j _)

/-! ## Delays (R125) -/

section
variable {s : State}

theorem acceptDelay_zero (h : s.req.cycles = 0) : acceptDelay s = s := if_pos h

theorem acceptDelay_waits (h : s.req.cycles ≠ 0) : acceptDelay s = startDelay s.req.cycles s := if_neg h

theorem delay_frame (r : BusRequest) (s : State) : SameOutsideSequencer (acceptDelay (taken r s)) s := by
  unfold acceptDelay
  split <;> cases r <;> rfl

/-- A delay is in its delay stage for exactly `cycles` ticks, and neither drives a pin nor writes anything. -/
theorem delay_ticks (hs : Ready s) (hop : s.seq.op = .cycledDelay) {k : Nat} (hk : k ≤ s.req.cycles.toNat) :
    let t := ticks k (acceptDelay s)
    t.seq.phase = (if k < s.req.cycles.toNat then .delay else .idle) ∧ t.pins = Pins.idle ∧
      t.trace = s.trace ∧ t.shadow = s.shadow ∧ t.result = s.result := by
  have hreq : (acceptDelay s).req.valid = false := by simpa using hs.no_request
  obtain ⟨hseq, hpins, hresult, -, hshadow, htrace⟩ := ticks_sequencer hreq k
  intro t
  rw [hseq, hpins, htrace, hshadow, hresult]
  by_cases hzero : s.req.cycles = 0
  · obtain rfl : k = 0 := by simpa [hzero] using hk
    rw [acceptDelay_zero hzero, hzero]
    exact ⟨hs.idle, hs.idle_pins, rfl, rfl, rfl⟩
  · rw [acceptDelay_waits hzero]
    obtain hlt | rfl := Nat.lt_or_eq_of_le hk
    · rw [seqRun_delay (s := startDelay s.req.cycles s) rfl hs.no_request hlt, if_pos hlt]
      exact ⟨rfl, hs.idle_pins, rfl, rfl, rfl⟩
    · have hrun : seqRun s.req.cycles.toNat (startDelay s.req.cycles s) = _ :=
        (seqRun_delay_end (s := startDelay s.req.cycles s) rfl hs.no_request hzero).trans (if_pos hop)
      rw [hrun, if_neg (Nat.lt_irrefl _)]
      exact ⟨rfl, hs.idle_pins, rfl, rfl, rfl⟩

theorem delay_timeline (hs : Ready s) (hop : s.seq.op = .cycledDelay) :
    Timeline (acceptDelay s) s.req.cycles.toNat 0 Pins.idle := by
  refine ⟨fun k hk => ?delay, fun k hle hlt => absurd hlt (Nat.not_lt.2 hle), ?done⟩
  case delay =>
    obtain ⟨hphase, hpins, -⟩ := delay_ticks hs hop hk.le
    exact ⟨hphase.trans (if_pos hk), hpins⟩
  case done =>
    obtain ⟨hphase, hpins, -⟩ := delay_ticks hs hop le_rfl
    exact ⟨hphase.trans (if_neg (Nat.lt_irrefl _)), hpins⟩

end

/-- Settles O6: the delay's stage at every tick up to its end, which no routing enters. -/
theorem busCycledDelayCompletes : Obligations.BusCycledDelayCompletes := by
  refine ⟨fun p w hop => by simp [decode, decodeRequest, BusOp.ofCode, hop], fun s cycles hinv hfree => ?_⟩
  have hready := ready_taken hinv hfree (.cycledDelay cycles)
  refine ⟨_, byRequester_of_free hfree, ?_⟩
  rw [present_cycledDelay ((primaryFree_iff s).1 hfree).2.1]
  refine ⟨by simp [taken], delay_frame _ s, delay_timeline hready rfl, fun k hk => ?_⟩
  obtain ⟨-, -, htrace, hshadow, hresult⟩ := delay_ticks hready rfl hk
  obtain ⟨hrt, hmute⟩ := ticks_settings k (acceptDelay (taken (.cycledDelay cycles) s))
  exact ⟨htrace, hshadow, hresult, hrt.trans (by simp [taken]), hmute.trans (by simp [taken])⟩

end Sys2Proof.Proofs.BusOperations
end

-- ==== CMD_MUTE and CMD_UNMUTE (41_command_port.md R156) ====
section
namespace Sys2Proof.Proofs.Mute

open Sys2Proof Sys2Proof.Machine

/-! ## The command class (R91, R154) -/

/-- R91: top bits 0b11 select none of the three classes tested before the command class. -/
theorem decode_cmd_of_commandClass {b : Byte} (h : b.extractLsb' 6 2 = 0b11) (p : Config.Params) (rest : List Byte) :
    decode p (.cmd (b :: rest)) = .ok (decodeCommand p (b.extractLsb' 0 5) rest) := by
  simp [decode, decodeBuffer, h]

theorem decodeCommand_subopMute {p : Config.Params} (hconfig : p.subopMute ≠ 0x12) (rest : List Byte) :
    decodeCommand p p.subopMute rest = .cmdMute := by
  rw [decodeCommand, if_neg hconfig, if_pos rfl]

theorem decodeCommand_subopUnmute {p : Config.Params} (hconfig : p.subopUnmute ≠ 0x12)
    (hmute : p.subopUnmute ≠ p.subopMute) (rest : List Byte) :
    decodeCommand p p.subopUnmute rest = .cmdUnmute := by
  rw [decodeCommand, if_neg hconfig, if_neg hmute, if_pos rfl]

/-! ## The effect (R156) -/

theorem exec_cmdMute_of_free {s : State} (h : primaryFree s = true) :
    exec .cmdMute s = .next { s with mute := true } :=
  byPrimary_of_free (i := .cmdMute) (f := fun t => { t with mute := true }) h

theorem exec_cmdUnmute_of_free {s : State} (h : primaryFree s = true) :
    exec .cmdUnmute s = .next { s with mute := false } :=
  byPrimary_of_free (i := .cmdUnmute) (f := fun t => { t with mute := false }) h

/-- Settles O17: the next state is `s` with the flag written, so putting the flag back gives `s` again. -/
theorem muteCommandsSetFlag : Obligations.MuteCommandsSetFlag := by
  refine ⟨fun p b rest hclass => ⟨fun hsub hconfig => ?mute, fun hsub hconfig hmute => ?unmute⟩, rfl, rfl,
    fun s hfree => ⟨⟨_, exec_cmdMute_of_free hfree, rfl, rfl⟩, ⟨_, exec_cmdUnmute_of_free hfree, rfl, rfl⟩⟩⟩
  case mute => rw [decode_cmd_of_commandClass hclass, hsub, decodeCommand_subopMute hconfig]
  case unmute => rw [decode_cmd_of_commandClass hclass, hsub, decodeCommand_subopUnmute hconfig hmute]

end Sys2Proof.Proofs.Mute
end

-- ==== EV_PLAY_STOP (42_asid_ring.md R182) ====
section
namespace Sys2Proof.Proofs.PlayStop

open Sys2Proof Sys2Proof.Machine

theorem decode_aev_of_code_one {w : EventWord} (h : w.code = 1) (p : Config.Params) :
    decode p (.aev w) = .ok .evPlayStop := by
  have hzero : w.code ≠ 0 := by rw [h]; decide
  show decodeEvent w = _
  rw [decodeEvent, if_neg hzero, if_pos h]

theorem exec_evPlayStop_of_free {s : State} (h : primaryFree s = true) : exec .evPlayStop s = .next s :=
  byPrimary_of_free (i := .evPlayStop) (f := fun t => t) h

/-- Settles O27: the event taken by a free primary context has the identity as its effect. -/
theorem playStopChangesNothing : Obligations.PlayStopChangesNothing :=
  ⟨fun p _ hcode => decode_aev_of_code_one hcode p, fun _ hfree => exec_evPlayStop_of_free hfree⟩

end Sys2Proof.Proofs.PlayStop
end

-- ==== The drain timer over several ticks (42_asid_ring.md R177) ====
section
namespace Sys2Proof.Proofs.DrainTimer

open Sys2Proof Sys2Proof.Machine

/-- `s` with the timer's count at `k`. -/
def atCount (k : Nat) (s : State) : State := { s with drain := { s.drain with irqCnt := BitVec.ofNat 32 k } }

section
variable {s : State} {k : Nat}

theorem atCount_zero (hzero : s.drain.irqCnt = 0) : atCount 0 s = s := by
  show { s with drain := { s.drain with irqCnt := 0 } } = s
  rw [← hzero]

/-- Below the period, which has 32 bits, the count does not wrap. -/
theorem atCount_irqCnt_toNat (hk : k < s.drain.irqPeriod.toNat) : (atCount k s).drain.irqCnt.toNat = k :=
  (BitVec.toNat_ofNat k 32).trans (Nat.mod_eq_of_lt (hk.trans s.drain.irqPeriod.isLt))

theorem timerTick_atCount (hactive : s.drain.active = true) (hk : k + 1 < s.drain.irqPeriod.toNat) :
    timerTick (atCount k s) = atCount (k + 1) s := by
  have hcnt : (atCount k s).drain.irqCnt.toNat + 1 < s.drain.irqPeriod.toNat := by
    rwa [atCount_irqCnt_toNat (Nat.lt_of_succ_lt hk)]
  rw [timerTick_count (s := atCount k s) hactive hcnt]
  simp only [atCount, BitVec.ofNat_add]
  rfl

theorem timerTick_atCount_last (hactive : s.drain.active = true) (hk : s.drain.irqPeriod.toNat = k + 1) :
    timerTick (atCount k s) =
      { s with drain := { s.drain with irqCnt := 0, irqPeriod := s.rate.correctedRate, irqPending := true } } := by
  have hcnt : s.drain.irqPeriod.toNat ≤ (atCount k s).drain.irqCnt.toNat + 1 := by
    rw [atCount_irqCnt_toNat (hk ▸ Nat.lt_succ_self k), hk]
  exact timerTick_fire (s := atCount k s) hactive hcnt

/-- Before its period is over the timer only counts. -/
theorem timerTick_iterate_of_lt (hactive : s.drain.active = true) (hzero : s.drain.irqCnt = 0)
    (hk : k < s.drain.irqPeriod.toNat) : timerTick^[k] s = atCount k s := by
  induction k with
  | zero => exact (atCount_zero hzero).symm
  | succ k ih => rw [Function.iterate_succ_apply', ih (Nat.lt_of_succ_lt hk), timerTick_atCount hactive hk]

/-- Counted from 0, the timer fires at the end of its period. -/
theorem timerTick_iterate_period (hactive : s.drain.active = true) (hzero : s.drain.irqCnt = 0)
    (hpos : 1 ≤ s.drain.irqPeriod.toNat) :
    timerTick^[s.drain.irqPeriod.toNat] s =
      { s with drain := { s.drain with irqCnt := 0, irqPeriod := s.rate.correctedRate, irqPending := true } } := by
  obtain ⟨k, hperiod⟩ := Nat.exists_eq_add_of_le' hpos
  have hlast : k < s.drain.irqPeriod.toNat := hperiod ▸ Nat.lt_succ_self k
  rw [hperiod, Function.iterate_succ_apply', timerTick_iterate_of_lt hactive hzero hlast,
    timerTick_atCount_last hactive hperiod]

end

/-- Settles O40: the count by induction on the ticks below the period; the firing is the tick after the last of them. -/
theorem timerFiresEveryPeriod : Obligations.TimerFiresEveryPeriod := fun _ =>
  ⟨rfl, timerTick_inactive, fun hactive hzero hpos =>
    ⟨fun _ hk => timerTick_iterate_of_lt hactive hzero hk, timerTick_iterate_period hactive hzero hpos⟩⟩

end Sys2Proof.Proofs.DrainTimer
end

-- ==== EV_SET_BASE_RATE (43_asid_rate.md R204) ====
section
namespace Sys2Proof.Proofs.BaseRate

open Sys2Proof Sys2Proof.Machine

theorem decode_aev_of_code_two {w : EventWord} (h : w.code = 2) (p : Config.Params) :
    decode p (.aev w) = .ok (.evSetBaseRate w.r) := by
  have hzero : w.code ≠ 0 := by rw [h]; decide
  have hone : w.code ≠ 1 := by rw [h]; decide
  show decodeEvent w = _
  rw [decodeEvent, if_neg hzero, if_neg hone, if_pos h]

theorem exec_evSetBaseRate_of_free {s : State} (r : Ticks) (h : primaryFree s = true) :
    exec (.evSetBaseRate r) s = .next (setBaseRate r s) :=
  byPrimary_of_free (i := .evSetBaseRate r) (f := setBaseRate r) h

/-- The baseline 0 is no baseline, so both branches write `r` and whether it is one. -/
theorem setBaseRate_eq (r : Ticks) (s : State) :
    setBaseRate r s = { s with rate := { s.rate with baseRate := r, rateExplicit := decide (r ≠ 0) } } := by
  by_cases hr : r = 0
  · subst hr; rfl
  · rw [setBaseRate, if_pos hr, decide_eq_true hr]

/-- `NewTune` forgets only an auto-detected baseline (R183). -/
theorem newTune_keeps_explicit {s : State} (h : s.rate.rateExplicit = true) :
    (newTune s).rate.baseRate = s.rate.baseRate ∧ (newTune s).rate.rateExplicit = true := by
  simp [h]

theorem asidTeardown_rate (s : State) : (asidTeardown s).rate = s.rate := by simp

/-- Settles O28: the event writes the two registers; a rate that is not 0 is an explicit one, which `NewTune` keeps. -/
theorem setBaseRateWritesBaseline : Obligations.SetBaseRateWritesBaseline := by
  refine ⟨fun p _ hcode => decode_aev_of_code_two hcode p, fun s r hfree =>
    ⟨setBaseRate r s, exec_evSetBaseRate_of_free r hfree, ?_⟩⟩
  rw [setBaseRate_eq]
  exact ⟨rfl, rfl, fun hr => newTune_keeps_explicit (decide_eq_true hr), asidTeardown_rate _⟩

end Sys2Proof.Proofs.BaseRate
end

-- ==== The clamp and the hysteresis (43_asid_rate.md R209, R210) ====
section
namespace Sys2Proof.Proofs.RateRegister

open Sys2Proof Sys2Proof.Machine

/-! ## The clamp (R209) -/

theorem clampTarget_no_baseline (target : Nat) : clampTarget 0 target = max target 1 := rfl

section
variable {base target : Nat}

theorem clampTarget_baseline (hbase : base ≠ 0) :
    clampTarget base target = max (min (max target (base / 6)) (base * 12 / 10)) 1 := by
  rw [clampTarget, if_pos hbase]
  rfl

theorem clampTarget_below (hbase : base ≠ 0) (h : target < base / 6) :
    clampTarget base target = max (base / 6) 1 := by
  rw [clampTarget_baseline hbase]; omega

theorem clampTarget_above (hbase : base ≠ 0) (h : base * 12 / 10 < target) :
    clampTarget base target = max (base * 12 / 10) 1 := by
  rw [clampTarget_baseline hbase]; omega

theorem clampTarget_within (hbase : base ≠ 0) (hlow : base / 6 ≤ target) (hhigh : target ≤ base * 12 / 10) :
    clampTarget base target = max target 1 := by
  rw [clampTarget_baseline hbase, max_eq_left hlow, min_eq_left hhigh]

end

/-- Settles O36: the target below, above and inside the band, and no baseline; the bounds are those of the band. -/
theorem clampKeepsTargetInBand : Obligations.ClampKeepsTargetInBand := fun base target =>
  ⟨clampTarget_pos base target, fun hbase => clampTarget_band hbase target, clampTarget_below, clampTarget_above,
    clampTarget_within, fun hbase => hbase ▸ clampTarget_no_baseline target⟩

/-! ## The hysteresis (R210) -/

theorem hyst_lt_absDiff_iff (a b : Nat) : Config.hyst < absDiff a b ↔ a + 50 < b ∨ b + 50 < a := by
  unfold absDiff Config.hyst; omega

/-- At a reload the period is the rate register, between reloads it stays. -/
theorem timerTick_irqPeriod {s : State} (hactive : s.drain.active = true) :
    (timerTick s).drain.irqPeriod =
      if s.drain.irqPeriod.toNat ≤ s.drain.irqCnt.toNat + 1 then s.rate.correctedRate else s.drain.irqPeriod := by
  by_cases hreload : s.drain.irqPeriod.toNat ≤ s.drain.irqCnt.toNat + 1
  · rw [timerTick_fire hactive hreload, if_pos hreload]
  · rw [timerTick_count hactive (Nat.not_le.1 hreload), if_neg hreload]

/-- Settles O37: the two ways of differing by more than 50, and their negation. -/
theorem hysteresisIsStrict : Obligations.HysteresisIsStrict := by
  refine ⟨fun s hactive => timerTick_irqPeriod hactive, fun s target hwidth => ⟨fun hfar => ?applied,
    fun habove hbelow => ?kept⟩⟩
  case applied =>
    rw [applyTarget_apply ((hyst_lt_absDiff_iff _ _).2 hfar)]
    exact ⟨BitVec.toNat_ofNat target 32 ▸ Nat.mod_eq_of_lt hwidth, rfl, rfl⟩
  case kept =>
    have hnear : ¬Config.hyst < absDiff target s.rate.correctedRate.toNat := by
      rw [hyst_lt_absDiff_iff]; omega
    exact applyTarget_keep (Nat.not_lt.1 hnear)

end Sys2Proof.Proofs.RateRegister
end

-- ==== AdjustRate's room and target (43_asid_rate.md R205 to R208, R211) ====
section
namespace Sys2Proof.Proofs.RateAdjustment

open Sys2Proof Sys2Proof.Machine

/-! ## Room in a legal ring (R75) -/

/-- All the fill arithmetic needs to know of the legal sizes (R39). -/
theorem ringInv_size {r : Ring} (h : RingInv r) : r.size % 4 = 0 ∧ 2240 ≤ r.size := by
  have hlegal : ∀ n ∈ legalSizes, n % 4 = 0 ∧ 2240 ≤ n := by decide
  exact hlegal r.size h.size_legal

theorem ringInv_fill_aligned {r : Ring} (h : RingInv r) : r.fill % 4 = 0 :=
  Ring.fill_aligned r h.read_aligned h.write_aligned (ringInv_size h).1 h.read_lt

theorem fill_eq_mod {r : Ring} (hread : r.read < r.size) (hwrite : r.write < r.size) :
    r.fill = (r.write + (r.size - r.read)) % r.size := by
  by_cases hstraight : r.read ≤ r.write
  · have hsum : r.write + (r.size - r.read) = r.write - r.read + r.size := by omega
    rw [hsum, Nat.add_mod_right, Nat.mod_eq_of_lt (by omega), Ring.fill, if_pos hstraight]
  · rw [Nat.mod_eq_of_lt (by omega), Ring.fill, if_neg hstraight, Nat.add_comm]

/-- The entry kept free fits in every legal ring: fill and size are multiples of an entry, and the fill is smaller. -/
theorem headroom_add_entry_add_fill {r : Ring} (h : RingInv r) : r.headroom + 4 + r.fill = r.size := by
  have hlt := Ring.fill_lt r h.read_lt h.write_lt
  have hfill := ringInv_fill_aligned h
  have hsize := (ringInv_size h).1
  unfold Ring.headroom Config.entryBytes
  omega

/-! ## The three ways of step 1 (R206) -/

section
variable {s : State} (calcRate : Nat)

theorem adjustRate_of_room (h : 448 ≤ s.ring.headroom) : adjustRate calcRate s = retarget calcRate s :=
  if_neg (Nat.not_lt.2 h)

theorem adjustRate_of_growth (h : s.ring.headroom < 448) (hsize : s.ring.size < 16800) :
    adjustRate calcRate s = retarget calcRate (grow s) :=
  (if_pos h).trans (if_pos hsize)

theorem adjustRate_of_maximum (h : s.ring.headroom < 448) (hsize : 16800 ≤ s.ring.size) :
    adjustRate calcRate s = emergency s :=
  (if_pos h).trans (if_neg (Nat.not_lt.2 hsize))

end

theorem retarget_ring_drain (calcRate : Nat) (s : State) :
    (retarget calcRate s).ring = s.ring ∧ (retarget calcRate s).drain = s.drain := by simp

theorem retarget_zero (s : State) : retarget 0 s = s := rfl

/-- `Emergency` writes only `corrected_rate` (R211). -/
theorem emergency_only_correctedRate (s : State) :
    { emergency s with rate := s.rate } = s ∧
      { (emergency s).rate with correctedRate := s.rate.correctedRate } = s.rate := ⟨rfl, rfl⟩

/-- Settles O34: the two tests of step 1 in terms of the cursors, and what each outcome leaves alone. -/
theorem lowHeadroomGrowsOrCuts : Obligations.LowHeadroomGrowsOrCuts := by
  refine ⟨fun r hr => ⟨fill_eq_mod hr.read_lt hr.write_lt, headroom_add_entry_add_fill hr, ringInv_fill_aligned hr⟩,
    fun s calcRate => ⟨fun hlow hsize => ?growth, fun hlow hsize => ?cut, fun hroom => ?room⟩⟩
  case growth =>
    have heq := adjustRate_of_growth calcRate hlow hsize
    exact ⟨heq, heq ▸ (retarget_ring_drain calcRate (grow s)).1⟩
  case cut =>
    rw [adjustRate_of_maximum calcRate hlow hsize]
    exact ⟨emergency_rate s, emergency_only_correctedRate s⟩
  case room =>
    obtain ⟨hring, hdrain⟩ := retarget_ring_drain calcRate s
    rw [adjustRate_of_room calcRate hroom]
    exact ⟨rfl, hring, hdrain, fun hzero => hzero ▸ retarget_zero s⟩

/-! ## The nudge (R208) -/

/-- Half a frame is at most 2 percent of the smallest ring. -/
theorem not_full_of_low {r : Ring} (h : RingInv r) (hlow : r.fill < 56) : r.fill * 100 / r.size ≤ 90 := by
  have hsize := (ringInv_size h).2
  exact Nat.div_le_of_le_mul (by omega)

section
variable {r : Ring} (par : Config.Params) (target : Nat)

theorem nudgeTarget_full (h : 90 < r.fill * 100 / r.size) :
    nudgeTarget par r target = target - target / par.nudgeFullDiv :=
  if_pos h

theorem nudgeTarget_low (hfull : r.fill * 100 / r.size ≤ 90) (hlow : r.fill < 56) :
    nudgeTarget par r target = target + target / par.nudgeLowDiv :=
  (if_neg (Nat.not_lt.2 hfull)).trans (if_pos hlow)

theorem nudgeTarget_between (hfull : r.fill * 100 / r.size ≤ 90) (hlow : 56 ≤ r.fill) :
    nudgeTarget par r target = target :=
  (if_neg (Nat.not_lt.2 hfull)).trans (if_neg (Nat.not_lt.2 hlow))

end

/-- Settles O35: the clamp of the nudged target in the three ranges of the fill, of which a legal ring meets one. -/
theorem targetIsNudgedByFill : Obligations.TargetIsNudgedByFill := by
  refine ⟨rfl, rfl, fun s calcRate hring => ⟨rfl, ?exclusive, fun hfull => ?full, fun hlow => ?low,
    fun hfull hlow => ?between⟩⟩
  case exclusive => exact fun ⟨hfull, hlow⟩ => Nat.not_lt.2 (not_full_of_low hring hlow) hfull
  case full => rw [targetRate, nudgeTarget_full s.par _ hfull]
  case low => rw [targetRate, nudgeTarget_low s.par _ (not_full_of_low hring hlow) hlow]
  case between => rw [targetRate, nudgeTarget_between s.par _ hfull hlow]

/-! ## Repeated cuts (R211) -/

theorem emergency_of_le_three {s : State} (hpos : 1 ≤ s.rate.correctedRate.toNat)
    (hle : s.rate.correctedRate.toNat ≤ 3) : emergency s = s := by
  have hrate : (emergency s).rate.correctedRate = s.rate.correctedRate := by
    apply BitVec.eq_of_toNat_eq
    rw [emergency_rate]
    omega
  calc emergency s
      = { s with rate := { s.rate with correctedRate := (emergency s).rate.correctedRate } } := rfl
    _ = s := by rw [hrate]

/-- The quarter is rounded down, so a cut of three or more leaves at least three. -/
theorem three_le_iterate_emergency {s : State} (h : 3 ≤ s.rate.correctedRate.toNat) (n : Nat) :
    3 ≤ (emergency^[n] s).rate.correctedRate.toNat := by
  induction n with
  | zero => exact h
  | succ n ih =>
    rw [Function.iterate_succ_apply', emergency_rate]
    omega

/-- Above three every cut takes at least one tick, so `n` cuts use up an excess of `n`. -/
theorem iterate_emergency_eq_three (n : Nat) {s : State} (hge : 3 ≤ s.rate.correctedRate.toNat)
    (hle : s.rate.correctedRate.toNat ≤ 3 + n) : (emergency^[n] s).rate.correctedRate.toNat = 3 := by
  induction n generalizing s with
  | zero => exact Nat.le_antisymm hle hge
  | succ n ih =>
    have hcut := emergency_rate s
    exact ih (by omega) (by omega)

/-- Settles O39: the register is the bound on how many cuts it takes to reach three. -/
theorem emergencyCutsStopAtThree : Obligations.EmergencyCutsStopAtThree := by
  intro s
  obtain ⟨hstate, hregs⟩ := emergency_only_correctedRate s
  refine ⟨emergency_rate s, hstate, hregs, fun hlow hsize calcRate => adjustRate_of_maximum calcRate hlow hsize.ge,
    fun hge => ⟨three_le_iterate_emergency hge, s.rate.correctedRate.toNat, fun m hm => ?_⟩, emergency_of_le_three⟩
  exact iterate_emergency_eq_three m hge (hm.trans (Nat.le_add_left m 3))

end Sys2Proof.Proofs.RateAdjustment
end

-- ==== The encodings (30_encoding.md sections 1 to 5) ====
section
namespace Sys2Proof.Proofs.Encodings

open Sys2Proof Sys2Proof.Machine Sys2Proof.Proofs.Bursts Sys2Proof.Proofs.Mute

/-! ## Byte 0 by arithmetic (R91, R92, R96) -/

theorem byteClass_toNat (b : Byte) : (b.extractLsb' 6 2).toNat = b.toNat / 64 := by
  have := b.isLt
  simp [Nat.shiftRight_eq_div_pow]
  omega

theorem byteCount_toNat (b : Byte) : (b.extractLsb' 0 6).toNat = b.toNat % 64 := by simp

theorem byteClass_eq {b : Byte} {cls : BitVec 2} (h : b.toNat / 64 = cls.toNat) : b.extractLsb' 6 2 = cls :=
  BitVec.eq_of_toNat_eq ((byteClass_toNat b).trans h)

/-- Bit 5 lies neither in the class nor in the sub-opcode. -/
theorem bit_five_outside_fields (b : Byte) :
    (b ^^^ 0x20).extractLsb' 6 2 = b.extractLsb' 6 2 ∧ (b ^^^ 0x20).extractLsb' 0 5 = b.extractLsb' 0 5 := by
  simp [BitVec.extractLsb'_xor]

theorem decode_cmd_by_class (p : Config.Params) (b : Byte) (rest : List Byte) :
    decode p (.cmd (b :: rest)) =
      if b.extractLsb' 6 2 = 0b00 then .ok (.cmdWrite (b.extractLsb' 0 6) rest)
      else if b.extractLsb' 6 2 = 0b01 then .ok (.cmdRead rest.head?)
      else if b.extractLsb' 6 2 = 0b10 then .ok (.cmdCycledWrite (b.extractLsb' 0 6) rest)
      else .ok (decodeCommand p (b.extractLsb' 0 5) rest) := rfl

/-- Settles O59: the equation of the class for each quotient of byte 0 by 64. -/
theorem everyBufferDecodesByClass : Obligations.EveryBufferDecodesByClass := by
  intro p b rest
  refine ⟨fun h => ?write, fun h => ?read, fun h => ?cycledWrite, fun h => ?command⟩
  case write =>
    refine ⟨_, byteCount_toNat b, ?_⟩
    rw [decode_cmd_by_class, if_pos (byteClass_eq h)]
  case read =>
    have hcls := byteClass_eq (cls := 0b01) h
    rw [decode_cmd_by_class, hcls]
    rfl
  case cycledWrite =>
    have hcls := byteClass_eq (cls := 0b10) h
    refine ⟨_, byteCount_toNat b, ?_⟩
    rw [decode_cmd_by_class, hcls]
    rfl
  case command =>
    have hcls := byteClass_eq (cls := 0b11) h
    obtain ⟨hcls', hsub⟩ := bit_five_outside_fields b
    rw [decode_cmd_of_commandClass hcls, decode_cmd_of_commandClass (hcls'.trans hcls), hsub]
    exact ⟨⟨_, rfl⟩, rfl⟩

/-! ## The command class: a byte of it, and its sub-opcodes (R96, R98, R154) -/

/-- Byte 0 built from a sub-opcode is of the command class and holds that sub-opcode. -/
theorem decode_commandByte (p : Config.Params) (sub : BitVec 5) (rest : List Byte) :
    decode p (.cmd (commandByte sub :: rest)) = .ok (decodeCommand p sub rest) := by
  have hclass : ∀ sub : BitVec 5, (commandByte sub).extractLsb' 6 2 = 0b11 := by decide
  have hsub : (commandByte sub).extractLsb' 0 5 = sub := BitVec.extractLsb'_append_eq_right
  rw [decode_cmd_of_commandClass (hclass sub), hsub]

theorem decodeCommand_subopResetSid {p : Config.Params} (hconfig : p.subopResetSid ≠ 0x12)
    (hmute : p.subopResetSid ≠ p.subopMute) (hunmute : p.subopResetSid ≠ p.subopUnmute) (rest : List Byte) :
    decodeCommand p p.subopResetSid rest = .cmdResetSid := by
  rw [decodeCommand, if_neg hconfig, if_neg hmute, if_neg hunmute, if_pos rfl]

theorem not_claimed_iff {p : Config.Params} {sub : BitVec 5} :
    (!p.claimed.contains sub) = true ↔ sub ≠ p.subopMute ∧ sub ≠ p.subopUnmute ∧ sub ≠ p.subopResetSid := by
  simp [Config.Params.claimed]

/-- A sub-opcode that no model argument claims has its fixed name, or none. -/
theorem decodeCommand_unclaimed {p : Config.Params} {sub : BitVec 5} (h : (!p.claimed.contains sub) = true)
    (rest : List Byte) :
    decodeCommand p sub rest =
      if sub = 0x12 then decodeConfig rest
      else if sub = 0x13 then .cmdResetMcu
      else if sub = 0x0A then .cmdPause
      else if sub = 0x0B then .cmdUnpause
      else if sub = 0x0F then .cmdDisableSid
      else if sub = 0x10 then .cmdEnableSid
      else if sub = 0x11 then .cmdClearBus
      else if sub = 0x14 then .cmdBootloader
      else .cmdUnassigned sub := by
  obtain ⟨hmute, hunmute, hreset⟩ := not_claimed_iff.1 h
  rw [decodeCommand, if_neg hmute, if_neg hunmute, if_neg hreset]

theorem decodeCommand_nameless {p : Config.Params} {sub : BitVec 5} (h : (!p.claimed.contains sub) = true)
    (hfixed : sub ∉ Config.fixedSubops) (rest : List Byte) : decodeCommand p sub rest = .cmdUnassigned sub := by
  simp only [Config.fixedSubops, List.mem_cons, List.not_mem_nil, or_false, not_or] at hfixed
  simp only [decodeCommand_unclaimed h, hfixed, if_false]

/-- CONFIG comes first, whatever the arguments claim. -/
theorem decodeCommand_config (p : Config.Params) (rest : List Byte) :
    decodeCommand p 0x12 rest = decodeConfig rest := rfl

/-! ## The config commands (R97) -/

/-- The player's config commands are those with the top three bits set. -/
theorem player_iff (c : Byte) : c.extractLsb' 5 3 = 0b111 ↔ 0xE0 ≤ c.toNat := by
  revert c; decide

theorem isNamedConfig_eq_false_iff (c : Byte) :
    isNamedConfig c = false ↔ c ≠ 0x30 ∧ c ≠ 0x5B ∧ c.extractLsb' 5 3 ≠ 0b111 := by
  have hplayer : ¬c.extractLsb' 5 3 = 0b111 ↔ c.toNat < 0xE0 := (player_iff c).not.trans Nat.not_le
  simp only [isNamedConfig, Bool.or_eq_false_iff, beq_eq_false_iff_ne, decide_eq_false_iff_not, Nat.not_le, and_assoc,
    ne_eq, hplayer]

theorem decodeConfig_nameless {sub : List Byte} (h : sub.head?.any isNamedConfig = false) :
    decodeConfig sub = .cmdConfig sub := by
  cases sub with
  | nil => rfl
  | cons c operands =>
    obtain ⟨hread, hdetect, hplayer⟩ := (isNamedConfig_eq_false_iff c).1 h
    rw [decodeConfig, if_neg hread, if_neg hdetect, if_neg hplayer]

theorem decodeConfig_player (control : BitVec 5) (operands : List Byte) :
    decodeConfig ((0b111#3 ++ control) :: operands) = .cfgPlayer control operands := by
  have hother : ∀ control : BitVec 5,
      (0b111#3 ++ control : Byte) ≠ 0x30 ∧ (0b111#3 ++ control : Byte) ≠ 0x5B ∧
        (0b111#3 ++ control : Byte).extractLsb' 5 3 = 0b111 := by decide
  obtain ⟨hread, hdetect, hplayer⟩ := hother control
  have hcontrol : (0b111#3 ++ control).extractLsb' 0 5 = control := BitVec.extractLsb'_append_eq_right
  rw [decodeConfig, if_neg hread, if_neg hdetect, if_pos hplayer, hcontrol]

/-! ## Decoding what the encoder writes -/

theorem decodeEntry_append (register value : Byte) (delay : Cycles) :
    decodeEntry (register ++ value ++ delay) = .ringEntry register value delay := by
  have hregister : (register ++ value ++ delay).extractLsb' 24 8 = register := by
    rw [BitVec.extractLsb'_append_eq_of_le (by decide)]; exact BitVec.extractLsb'_append_eq_left
  have hvalue : (register ++ value ++ delay).extractLsb' 16 8 = value := by
    rw [BitVec.extractLsb'_append_eq_of_le (by decide)]; exact BitVec.extractLsb'_append_eq_right
  have hdelay : (register ++ value ++ delay).extractLsb' 0 16 = delay := BitVec.extractLsb'_append_eq_right
  rw [decodeEntry, hregister, hvalue, hdelay]

/-- Settles O57: instruction by instruction; the command class by the order of R154, of which a well-formed row meets
none before its own. -/
theorem encodingsDecodeBack : Obligations.EncodingsDecodeBack := by
  intro p i hwf
  cases i with
  | cmdWrite n operands => exact decode_cmd_append p 0b00 n operands
  | cmdRead address => cases address <;> rfl
  | cmdCycledWrite n operands => exact decode_cmd_append p 0b10 n operands
  | cmdMute =>
    have hconfig := of_decide_eq_true hwf
    rw [encode, decode_commandByte, decodeCommand_subopMute hconfig]
  | cmdUnmute =>
    simp only [WellFormed, Bool.and_eq_true, decide_eq_true_eq] at hwf
    obtain ⟨hconfig, hmute⟩ := hwf
    rw [encode, decode_commandByte, decodeCommand_subopUnmute hconfig hmute]
  | cmdResetSid =>
    simp only [WellFormed, Bool.and_eq_true, decide_eq_true_eq] at hwf
    obtain ⟨⟨hconfig, hmute⟩, hunmute⟩ := hwf
    rw [encode, decode_commandByte, decodeCommand_subopResetSid hconfig hmute hunmute]
  | cmdPause | cmdUnpause | cmdDisableSid | cmdEnableSid | cmdClearBus | cmdResetMcu | cmdBootloader =>
    rw [encode, decode_commandByte, decodeCommand_unclaimed hwf]
    rfl
  | cmdUnassigned sub =>
    simp only [WellFormed, Bool.and_eq_true] at hwf
    obtain ⟨hunclaimed, hfixed⟩ := hwf
    rw [encode, decode_commandByte, decodeCommand_nameless hunclaimed (by simpa using hfixed)]
  | cmdConfig sub =>
    rw [encode, decode_commandByte, decodeCommand_config, decodeConfig_nameless (by simpa [WellFormed] using hwf)]
  | cfgReadConfig operands | cfgRunAutoDetect operands => rw [encode, decode_commandByte]; rfl
  | cfgPlayer control operands =>
    rw [encode, decode_commandByte, decodeCommand_config, decodeConfig_player]
  | busWrite | busCycledWrite | busCycledRead | busCycledDelay => rfl
  | evPlayStart | evPlayStop | evSetBaseRate | evFrame | evPush => rfl
  | evTimer => rfl
  | ringEntry register value delay => exact congrArg Except.ok (decodeEntry_append register value delay)

/-! ## What decoding gives is well-formed -/

theorem wellFormed_decodeConfig (p : Config.Params) (rest : List Byte) : WellFormed p (decodeConfig rest) = true := by
  match rest with
  | [] => rfl
  | c :: operands =>
    by_cases hnamed : isNamedConfig c = false
    · rw [decodeConfig_nameless (sub := c :: operands) hnamed]
      simp [WellFormed, hnamed]
    · simp only [decodeConfig]
      split_ifs with hread hdetect hplayer
      · rfl
      · rfl
      · rfl
      · exact absurd ((isNamedConfig_eq_false_iff c).2 ⟨hread, hdetect, hplayer⟩) hnamed

/-- A row with a fixed sub-opcode is reached only by one no argument claims, which is what its well-formedness asks. -/
theorem wellFormed_decodeCommand_unclaimed {p : Config.Params} {sub : BitVec 5} (h : (!p.claimed.contains sub) = true)
    (rest : List Byte) : WellFormed p (decodeCommand p sub rest) = true := by
  by_cases hfixed : sub ∈ Config.fixedSubops
  · simp only [Config.fixedSubops, List.mem_cons, List.not_mem_nil, or_false] at hfixed
    obtain rfl | hnamed := hfixed
    · exact wellFormed_decodeConfig p rest
    · rw [decodeCommand_unclaimed h]
      obtain rfl | rfl | rfl | rfl | rfl | rfl | rfl := hnamed <;> exact h
  · rw [decodeCommand_nameless h hfixed, WellFormed, h]
    simpa using hfixed

theorem wellFormed_decodeCommand (p : Config.Params) (sub : BitVec 5) (rest : List Byte) :
    WellFormed p (decodeCommand p sub rest) = true := by
  by_cases hconfig : sub = 0x12
  · rw [hconfig]
    exact wellFormed_decodeConfig p rest
  by_cases hmute : sub = p.subopMute
  · rw [hmute] at hconfig ⊢
    rw [decodeCommand_subopMute hconfig]
    exact decide_eq_true hconfig
  by_cases hunmute : sub = p.subopUnmute
  · rw [hunmute] at hconfig hmute ⊢
    rw [decodeCommand_subopUnmute hconfig hmute]
    simpa [WellFormed, hmute] using hconfig
  by_cases hreset : sub = p.subopResetSid
  · rw [hreset] at hconfig hmute hunmute ⊢
    rw [decodeCommand_subopResetSid hconfig hmute hunmute]
    simpa [WellFormed, hmute, hunmute] using hconfig
  · exact wellFormed_decodeCommand_unclaimed (not_claimed_iff.2 ⟨hmute, hunmute, hreset⟩) rest

theorem wellFormed_decodeBuffer {p : Config.Params} {b : Byte} {rest : List Byte} {i : Instr}
    (h : decode p (.cmd (b :: rest)) = .ok i) : WellFormed p i = true := by
  rw [decode_cmd_by_class] at h
  split_ifs at h <;> injection h with h <;> subst h
  · rfl
  · rfl
  · rfl
  · exact wellFormed_decodeCommand p _ rest

theorem wellFormed_decodeRequest (p : Config.Params) (w : ReqWord) : WellFormed p (decodeRequest w) = true := by
  unfold decodeRequest
  split <;> rfl

theorem wellFormed_decodeEvent {p : Config.Params} {w : EventWord} {i : Instr} (h : decodeEvent w = .ok i) :
    WellFormed p i = true := by
  unfold decodeEvent at h
  split_ifs at h <;> injection h with h <;> subst h <;> rfl

/-- Settles O58: interface by interface; only the command class can decode to a row with a condition. -/
theorem decodedWordsAreWellFormed : Obligations.DecodedWordsAreWellFormed := by
  intro p c i h
  match c with
  | .cmd [] => cases h
  | .cmd (_ :: _) => exact wellFormed_decodeBuffer h
  | .req w => cases h; exact wellFormed_decodeRequest p w
  | .aev w => exact wellFormed_decodeEvent h
  | .timer => cases h; rfl
  | .ent w => cases h; rfl

/-- Settles O60: the words are literals, so the decoder computes each. -/
theorem knownWordsDecode : Obligations.KnownWordsDecode := by
  refine ⟨rfl, rfl, rfl, rfl, rfl, rfl, rfl, rfl, ?subopcodes, rfl, rfl, rfl, rfl, rfl, rfl, rfl, rfl⟩
  case subopcodes => decide

end Sys2Proof.Proofs.Encodings
end

-- ==== The ring and its queue (42_asid_ring.md section 2, R172 to R175) ====
section
namespace Sys2Proof.Proofs.RingQueue

open Sys2Proof Sys2Proof.Machine Sys2Proof.Proofs.RateAdjustment

/-! ## The bytes of an entry (R63, R101) -/

theorem joinDelay_bytes (delay : Cycles) : joinDelay (delayHi delay) (delayLo delay) = delay := by
  apply BitVec.eq_of_toNat_eq
  have := delay.isLt
  rw [Bursts.joinDelay_toNat]
  simp [delayHi, delayLo, Nat.shiftRight_eq_div_pow]
  omega

/-- An entry's 32-bit view, its last two bytes read as the delay. -/
theorem entryWord_eq (r : Ring) (o : Nat) :
    entryWord r o =
      ringByte r o ++ ringByte r (o + 1) ++ joinDelay (ringByte r (o + 2)) (ringByte r (o + 3)) := by
  rw [entryWord, joinDelay, BitVec.append_assoc (x₁ := ringByte r o ++ ringByte r (o + 1))]
  rfl

theorem decodeEntry_entryWord (r : Ring) (o : Nat) :
    decodeEntry (entryWord r o) =
      .ringEntry (ringByte r o) (ringByte r (o + 1)) (joinDelay (ringByte r (o + 2)) (ringByte r (o + 3))) := by
  rw [entryWord_eq, Encodings.decodeEntry_append]

theorem entryWord_storeEntry (r : Ring) (o : Nat) (register value : Byte) (delay : Cycles) :
    entryWord (storeEntry r o register value delay) o = register ++ value ++ delay := by
  obtain ⟨hregister, hvalue, hhi, hlo⟩ := ringByte_storeEntry r o register value delay
  rw [entryWord_eq, hregister, hvalue, hhi, hlo, joinDelay_bytes]

/-- Two entries with the same four bytes are the same. -/
theorem entryWord_congr {r r' : Ring} {o o' : Nat} (h : ∀ i, i < 4 → ringByte r' (o' + i) = ringByte r (o + i)) :
    entryWord r' o' = entryWord r o := by
  have h0 := h 0 (by decide)
  have h1 := h 1 (by decide)
  have h2 := h 2 (by decide)
  have h3 := h 3 (by decide)
  rw [Nat.add_zero, Nat.add_zero] at h0
  rw [entryWord, entryWord, h0, h1, h2, h3]

/-- The bytes do not depend on where the ring wraps. -/
theorem entryWord_resize (r : Ring) (size o : Nat) : entryWord { r with size := size } o = entryWord r o := rfl

/-! ## Legal sizes (R39) -/

theorem ringInv_size_le {r : Ring} (h : RingInv r) : r.size ≤ 16800 := by
  have hlegal : ∀ n ∈ legalSizes, n ≤ 16800 := by decide
  exact hlegal r.size h.size_legal

theorem grownSize_eq (r : Ring) : r.grownSize = min (r.size + 2240) 16800 := rfl

theorem grownSize_legal {r : Ring} (h : RingInv r) (hroom : r.size < 16800) : r.grownSize ∈ legalSizes := by
  have hstep : ∀ n ∈ legalSizes, n < 16800 → min (n + 2240) 16800 ∈ legalSizes := by decide
  exact hstep r.size h.size_legal hroom

/-- All the growth's arithmetic needs to know of the new size. -/
theorem grownSize_bounds {r : Ring} (h : RingInv r) (hroom : r.size < 16800) :
    r.grownSize % 4 = 0 ∧ r.size < r.grownSize ∧ r.grownSize ≤ r.size + 2240 ∧ r.grownSize ≤ 16800 := by
  obtain ⟨haligned, -⟩ := ringInv_size h
  rw [grownSize_eq]
  omega

/-! ## Offsets (R75) -/

/-- An offset less than two rounds from 0 wraps at most once. -/
theorem mod_once {size x : Nat} (h : x < 2 * size) : x % size = if x < size then x else x - size := by
  split
  · next hlt => exact Nat.mod_eq_of_lt hlt
  · next hge => rw [Nat.mod_eq_sub_mod (Nat.not_lt.1 hge), Nat.mod_eq_of_lt (by omega)]

section
variable {r : Ring} (h : RingInv r)
include h

/-- The entry after the last one stored would stand at the write cursor. -/
theorem read_add_fill : (r.read + r.fill) % r.size = r.write := by
  have hread := h.read_lt
  have hwrite := h.write_lt
  have hfill := Ring.fill_lt r hread hwrite
  rw [mod_once (by omega)]
  unfold Ring.fill at *
  split_ifs at * <;> omega

theorem next_write : r.next r.write = if r.write + 4 = r.size then 0 else r.write + 4 :=
  Ring.next_eq r h.write_lt h.write_aligned (ringInv_size h).1

/-- Where the `k`-th queued entry stands: between the cursors, so clear of the write cursor, and aligned. -/
theorem entry_offset {k : Nat} (hk : k < r.fill / 4) :
    let o := (r.read + 4 * k) % r.size
    o % 4 = 0 ∧ o + 4 ≤ r.size ∧ (o + 4 ≤ r.write ∨ r.read ≤ o ∧ (r.write < r.read ∨ o < r.write)) ∧
      o ≠ r.write := by
  have hread := h.read_lt
  have hwrite := h.write_lt
  have hread4 := h.read_aligned
  have hwrite4 := h.write_aligned
  have hsize4 := (ringInv_size h).1
  have hfill := Ring.fill_lt r hread hwrite
  unfold Config.entryBytes at *
  intro o
  have ho : o = if r.read + 4 * k < r.size then r.read + 4 * k else r.read + 4 * k - r.size := mod_once (by omega)
  unfold Ring.fill at *
  split_ifs at * <;> omega

end

/-! ## The queue (R180) -/

theorem queue_length (r : Ring) : (queue r).length = r.fill / 4 := by simp [queue, Config.entryBytes]

/-- Rings of the same fill with the same entries have the same queue. -/
theorem queue_congr {r r' : Ring} (hfill : r'.fill = r.fill) (hentry : ∀ k, k < r.fill / 4 → entryAt r' k = entryAt r k) :
    queue r' = queue r := by
  rw [queue, queue, hfill]
  exact List.map_congr_left fun k hk => hentry k (List.mem_range.1 hk)

/-! ## A push (R172) -/

/-- The ring after a push that is not dropped. -/
def pushed (r : Ring) (register value : Byte) (delay : Cycles) : Ring :=
  { storeEntry r r.write register value delay with write := r.next r.write }

theorem pushed_frame (r : Ring) (register value : Byte) (delay : Cycles) :
    (pushed r register value delay).read = r.read ∧ (pushed r register value delay).size = r.size ∧
      (pushed r register value delay).write = r.next r.write := by
  simp [pushed]

theorem ringByte_pushed (r : Ring) (register value : Byte) (delay : Cycles) (o : Nat) :
    ringByte (pushed r register value delay) o = ringByte (storeEntry r r.write register value delay) o := rfl

section
variable {r : Ring} {register value : Byte} {delay : Cycles}

/-- A push is dropped only with no headroom left. -/
theorem headroom_of_full (h : RingInv r) (hfull : r.next r.write = r.read) : r.headroom = 0 := by
  have hread := h.read_lt
  have hwrite := h.write_lt
  rw [next_write h] at hfull
  unfold Ring.headroom Ring.fill Config.entryBytes
  split_ifs at * <;> omega

theorem fill_pushed (h : RingInv r) (hroom : r.next r.write ≠ r.read) :
    (pushed r register value delay).fill = r.fill + 4 := by
  obtain ⟨hread', hsize', hwrite'⟩ := pushed_frame r register value delay
  have hread := h.read_lt
  have hwrite := h.write_lt
  have hread4 := h.read_aligned
  have hwrite4 := h.write_aligned
  unfold Config.entryBytes at *
  rw [Ring.fill, Ring.fill, hread', hsize', hwrite']
  rw [next_write h] at *
  split_ifs at * <;> omega

theorem ringInv_pushed (h : RingInv r) : RingInv (pushed r register value delay) where
  size_legal := by simpa [pushed] using h.size_legal
  read_aligned := by simpa [pushed] using h.read_aligned
  write_aligned := by
    have hwrite4 := h.write_aligned
    unfold Config.entryBytes at *
    rw [(pushed_frame r register value delay).2.2, next_write h]
    split_ifs <;> omega
  read_lt := by simpa [pushed] using h.read_lt
  write_lt := by simpa [pushed] using r.next_lt r.write (Nat.zero_lt_of_lt h.read_lt)
  mem_wf := by
    have hwrite := h.write_lt
    have hwrite4 := h.write_aligned
    have hsize4 := (ringInv_size h).1
    have hsize := ringInv_size_le h
    unfold Config.entryBytes at *
    exact ringMemWf_storeEntry h.mem_wf (show r.write + 3 < 16800 by omega) register value delay

theorem entryAt_pushed_old (h : RingInv r) {k : Nat} (hk : k < r.fill / 4) :
    entryAt (pushed r register value delay) k = entryAt r k := by
  obtain ⟨hread', hsize', -⟩ := pushed_frame r register value delay
  obtain ⟨ho4, -, -, hne⟩ := entry_offset h hk
  have hwrite4 := h.write_aligned
  unfold Config.entryBytes at *
  rw [entryAt, entryAt, hread', hsize']
  exact entryWord_congr fun i hi => ringByte_storeEntry_other r register value delay (by
    unfold Config.entryBytes at *; omega)

theorem entryAt_pushed_new (h : RingInv r) :
    entryAt (pushed r register value delay) (r.fill / 4) = register ++ value ++ delay := by
  obtain ⟨hread', hsize', -⟩ := pushed_frame r register value delay
  have hfill : 4 * (r.fill / 4) = r.fill := Nat.mul_div_cancel' (Nat.dvd_of_mod_eq_zero (ringInv_fill_aligned h))
  rw [entryAt, hread', hsize', Config.entryBytes, hfill, read_add_fill h]
  exact entryWord_storeEntry r r.write register value delay

theorem queue_pushed (h : RingInv r) (hroom : r.next r.write ≠ r.read) :
    queue (pushed r register value delay) = queue r ++ [register ++ value ++ delay] := by
  have hcount : (r.fill + 4) / 4 = r.fill / 4 + 1 := Nat.add_div_right _ (by decide)
  simp only [queue, Config.entryBytes, fill_pushed h hroom, hcount, List.range_succ, List.map_append, List.map_cons,
    List.map_nil, entryAt_pushed_new h]
  congr 1
  exact List.map_congr_left fun k hk => entryAt_pushed_old h (List.mem_range.1 hk)

end

/-- Settles O23: the stored entry lies at the write cursor, clear of every queued one. -/
theorem pushAppendsToQueue : Obligations.PushAppendsToQueue := by
  intro s register value delay hring
  refine ⟨fun hfull => ?dropped, fun hroom => ?stored⟩
  case dropped =>
    rw [pushEntry_full hfull]
    exact ⟨rfl, headroom_of_full hring hfull⟩
  case stored =>
    rw [pushEntry_store hroom]
    refine ⟨fill_pushed hring hroom, ?_, queue_pushed hring hroom⟩
    obtain ⟨hread, -, hwrite⟩ := pushed_frame s.ring register value delay
    exact fun h => hroom (hwrite.symm.trans (h.symm.trans hread))

/-! ## Growth (R174) -/

/-- The ascending copy reads every byte before it writes over it, and writes no byte twice: each destination ends with
its source's first value. -/
theorem ringByte_relocate {size newSize : Nat} (hgrow : size < newSize) (n : Nat)
    {j : Nat} {r : Ring} (hn : j + n ≤ size) {i : Nat} (hj : j ≤ i) (hi : i < j + n) :
    ringByte (relocate size newSize j n r) ((size + i) % newSize) = ringByte r i := by
  have hdest (k : Nat) (hk : k < size) :
      (size + k) % newSize = if size + k < newSize then size + k else size + k - newSize := mod_once (by omega)
  induction n generalizing j r with
  | zero => omega
  | succ n ih =>
    rw [relocate]
    obtain rfl | hlt := Nat.eq_or_lt_of_le hj
    · rw [ringByte_relocate_other, ringByte_store_same]
      intro k hk
      rw [hdest j (by omega), hdest (j + 1 + k) (by omega)]
      split_ifs <;> omega
    · rw [ih (by omega) hlt (by omega), ringByte_store_other]
      rw [hdest j (by omega)]
      split_ifs <;> omega

section
variable {r : Ring} (h : RingInv r) (hroom : r.size < 16800)
include h hroom

theorem ringInv_grown : RingInv r.grown where
  size_legal := by rw [Ring.grown_size]; exact grownSize_legal h hroom
  read_aligned := by rw [Ring.grown_read]; exact h.read_aligned
  write_aligned := by
    obtain ⟨hnew4, hgt, hle, -⟩ := grownSize_bounds h hroom
    obtain ⟨hsize4, hsize⟩ := ringInv_size h
    have hwrite := h.write_lt
    have hwrite4 := h.write_aligned
    have hmoved : (r.size + r.write) % r.grownSize =
        if r.size + r.write < r.grownSize then r.size + r.write else r.size + r.write - r.grownSize :=
      mod_once (by omega)
    unfold Config.entryBytes at *
    unfold Ring.grown
    split
    · simp only [hmoved]
      split_ifs <;> omega
    · exact hwrite4
  read_lt := by
    obtain ⟨-, hgt, -⟩ := grownSize_bounds h hroom
    rw [Ring.grown_read, Ring.grown_size]
    exact h.read_lt.trans hgt
  write_lt := by
    obtain ⟨-, hgt, -⟩ := grownSize_bounds h hroom
    rw [Ring.grown_size]
    unfold Ring.grown
    split
    · exact Nat.mod_lt _ (Nat.zero_lt_of_lt hgt)
    · exact h.write_lt.trans hgt
  mem_wf := by
    obtain ⟨-, hgt, -, hmax⟩ := grownSize_bounds h hroom
    unfold Ring.grown
    split
    · exact ringMemWf_relocate (Nat.zero_lt_of_lt hgt) hmax _ _ h.mem_wf
    · exact h.mem_wf

theorem fill_grown : r.grown.fill = r.fill := by
  obtain ⟨-, hgt, hle, -⟩ := grownSize_bounds h hroom
  have hsize := (ringInv_size h).2
  have hread := h.read_lt
  by_cases hwrapped : r.write < r.read
  · have hwrite : (r.size + r.write) % r.grownSize =
        if r.size + r.write < r.grownSize then r.size + r.write else r.size + r.write - r.grownSize :=
      mod_once (by omega)
    simp only [Ring.grown, if_pos hwrapped, Ring.fill, relocate_frame, hwrite]
    split_ifs <;> omega
  · rw [Ring.grown_straight (Nat.not_lt.1 hwrapped)]
    simp only [Ring.fill, if_pos (Nat.not_lt.1 hwrapped)]

/-- An entry of the wrapped tail has moved with its bytes; any other stands where it stood. -/
theorem entryAt_grown {k : Nat} (hk : k < r.fill / 4) : entryAt r.grown k = entryAt r k := by
  obtain ⟨hnew4, hgt, hle, -⟩ := grownSize_bounds h hroom
  obtain ⟨hsize4, hsize⟩ := ringInv_size h
  have hread := h.read_lt
  have hwrite := h.write_lt
  have hread4 := h.read_aligned
  have hwrite4 := h.write_aligned
  have hfill := Ring.fill_lt r hread hwrite
  unfold Config.entryBytes at *
  rw [entryAt, entryAt, Ring.grown_read, Ring.grown_size, Config.entryBytes]
  by_cases hwrapped : r.write < r.read
  case neg =>
    have hstraight := Nat.not_lt.1 hwrapped
    rw [Ring.fill, if_pos hstraight] at hk
    rw [Nat.mod_eq_of_lt (show r.read + 4 * k < r.size by omega),
      Nat.mod_eq_of_lt (show r.read + 4 * k < r.grownSize by omega), Ring.grown_straight hstraight]
    exact entryWord_resize r _ _
  have hbyte (o : Nat) : ringByte r.grown o = ringByte (relocate r.size r.grownSize 0 r.write r) o := by
    rw [Ring.grown, if_pos hwrapped]; rfl
  by_cases htail : r.read + 4 * k < r.size
  · rw [Nat.mod_eq_of_lt htail, Nat.mod_eq_of_lt (htail.trans hgt)]
    refine entryWord_congr fun i hi => ?_
    rw [hbyte, ringByte_relocate_other]
    intro j hj
    rw [mod_once (by omega)]
    split_ifs <;> omega
  · obtain ⟨j, hj⟩ := Nat.exists_eq_add_of_le (Nat.not_lt.1 htail)
    rw [Ring.fill, if_neg (Nat.not_le.2 hwrapped)] at hk
    have hold : (r.read + 4 * k) % r.size = j := by
      rw [hj, Nat.add_mod_left, Nat.mod_eq_of_lt (by omega)]
    rw [hold, hj]
    refine entryWord_congr fun i hi => ?_
    have hnext : (r.size + j) % r.grownSize + i = (r.size + (j + i)) % r.grownSize := by
      rw [mod_once (by omega), mod_once (by omega)]
      split_ifs <;> omega
    rw [hbyte, hnext, ringByte_relocate hgt r.write (by omega) (Nat.zero_le _) (by omega)]

theorem queue_grown : queue r.grown = queue r :=
  queue_congr (fill_grown h hroom) fun _ hk => entryAt_grown h hroom hk

end

/-- Settles O24: the fill, the entries one by one, and the legality of the grown ring. -/
theorem growthKeepsQueue : Obligations.GrowthKeepsQueue := by
  intro s hring hroom
  rw [grow_eq]
  exact ⟨queue_grown hring hroom, fill_grown hring hroom, Ring.grown_read _, Ring.grown_size _,
    ringInv_grown hring hroom, rfl⟩

/-! ## The reset of the size (R175) -/

/-- The ring with its size reset where both cursors lie unwrapped below the default. -/
def shrunk (r : Ring) : Ring :=
  { r with size := if r.read ≤ r.write ∧ r.write < 2240 then 2240 else r.size }

theorem mayShrink_iff (r : Ring) : r.mayShrink = true ↔ r.read ≤ r.write ∧ r.write < 2240 := by
  rw [Ring.mayShrink, Bool.and_eq_true, decide_eq_true_iff, decide_eq_true_iff, Config.ringDefaultBytes]

/-- A ring of the default size has nothing to reset, so the test of the size does not show. -/
theorem shrinkToDefault_ring_eq {s : State} (h : RingInv s.ring) : (shrinkToDefault s).ring = shrunk s.ring := by
  have hsize := (ringInv_size h).2
  simp only [shrinkToDefault_ring, mayShrink_iff, shrunk, Config.ringDefaultBytes]
  by_cases hmay : s.ring.read ≤ s.ring.write ∧ s.ring.write < 2240
  · obtain hbig | hdefault := Nat.lt_or_eq_of_le hsize
    · rw [if_pos ⟨hbig, hmay⟩, if_pos hmay]
    · rw [if_neg (by omega), if_pos hmay, hdefault]
  · rw [if_neg fun hboth => hmay hboth.2, if_neg hmay]

section
variable {r : Ring} (h : RingInv r)
include h

theorem ringInv_shrunk : RingInv (shrunk r) where
  size_legal := by
    show (if r.read ≤ r.write ∧ r.write < 2240 then 2240 else r.size) ∈ legalSizes
    split
    · decide
    · exact h.size_legal
  read_aligned := h.read_aligned
  write_aligned := h.write_aligned
  read_lt := by
    have hread := h.read_lt
    show r.read < if r.read ≤ r.write ∧ r.write < 2240 then 2240 else r.size
    split_ifs <;> omega
  write_lt := by
    have hwrite := h.write_lt
    show r.write < if r.read ≤ r.write ∧ r.write < 2240 then 2240 else r.size
    split_ifs <;> omega
  mem_wf := h.mem_wf

/-- The entries of an unwrapped queue stand below the write cursor, where neither size wraps. -/
theorem queue_shrunk : queue (shrunk r) = queue r := by
  by_cases hmay : r.read ≤ r.write ∧ r.write < 2240
  case neg => rw [shrunk, if_neg hmay]
  have hfill : r.fill = r.write - r.read := if_pos hmay.1
  have hfill' : (shrunk r).fill = r.write - r.read := if_pos hmay.1
  refine queue_congr (hfill'.trans hfill.symm) fun k hk => ?_
  have hwrite := h.write_lt
  have hbelow : r.read + 4 * k < r.write := by omega
  show entryWord (shrunk r) ((r.read + 4 * k) % (shrunk r).size) = entryWord r ((r.read + 4 * k) % r.size)
  have hsize : (shrunk r).size = 2240 := if_pos hmay
  rw [hsize, Nat.mod_eq_of_lt (hbelow.trans hmay.2), Nat.mod_eq_of_lt (hbelow.trans hwrite)]
  exact entryWord_resize r _ _

end

/-- Outside the ring `ShrinkToDefault` writes only the mask (log 14). -/
theorem shrinkToDefault_outside_ring (s : State) :
    (shrinkToDefault s).drain = { s.drain with irqMask := if 2240 < s.ring.size then false else s.drain.irqMask } ∧
      { shrinkToDefault s with ring := s.ring, drain := s.drain } = s := by
  unfold shrinkToDefault Config.ringDefaultBytes
  split
  · unfold critical setMask
    dsimp only
    split <;> exact ⟨rfl, rfl⟩
  · exact ⟨rfl, rfl⟩

/-- Settles O25: the ring is the one with its size reset, and the rest is the frame. -/
theorem shrinkKeepsQueue : Obligations.ShrinkKeepsQueue := by
  intro s hring
  obtain ⟨hdrain, hframe⟩ := shrinkToDefault_outside_ring s
  refine ⟨?_, shrinkToDefault_ring_eq hring, ?_, hdrain, hframe⟩
  · rw [shrinkToDefault_ring_eq hring, queue_shrunk hring]
  · rw [shrinkToDefault_ring_eq hring]
    exact ringInv_shrunk hring

/-! ## Other rings (R26, R32) -/

theorem ringInv_discard (r : Ring) : RingInv r.discard where
  size_legal := show 2240 ∈ legalSizes by decide
  read_aligned := rfl
  write_aligned := rfl
  read_lt := show 0 < 2240 by decide
  write_lt := show 0 < 2240 by decide
  mem_wf := rfl

/-- The ring after its oldest entry has been taken (R176). -/
def popped (r : Ring) : Ring := { r with read := r.next r.read }

/-- Taking the oldest entry moves every other one place forward. -/
theorem entryAt_popped (r : Ring) (k : Nat) : entryAt (popped r) k = entryAt r (k + 1) := by
  show entryWord r ((r.next r.read + 4 * k) % r.size) = entryWord r ((r.read + 4 * (k + 1)) % r.size)
  rw [Ring.next, Config.entryBytes, Nat.mod_add_mod]
  congr 2
  omega

section
variable {r : Ring} (h : RingInv r)
include h

theorem next_read : r.next r.read = if r.read + 4 = r.size then 0 else r.read + 4 :=
  Ring.next_eq r h.read_lt h.read_aligned (ringInv_size h).1

theorem ringInv_popped : RingInv (popped r) where
  size_legal := h.size_legal
  read_aligned := by
    have hread4 := h.read_aligned
    show r.next r.read % 4 = 0
    unfold Config.entryBytes at *
    rw [next_read h]
    split_ifs <;> omega
  write_aligned := h.write_aligned
  read_lt := r.next_lt r.read (Nat.zero_lt_of_lt h.read_lt)
  write_lt := h.write_lt
  mem_wf := h.mem_wf

theorem fill_popped (hne : r.read ≠ r.write) : (popped r).fill + 4 = r.fill := by
  have hread := h.read_lt
  have hwrite := h.write_lt
  have hread4 := h.read_aligned
  have hwrite4 := h.write_aligned
  have hsize4 := (ringInv_size h).1
  unfold Config.entryBytes at *
  show (if r.next r.read ≤ r.write then r.write - r.next r.read else r.size - r.next r.read + r.write) + 4 = r.fill
  rw [next_read h, Ring.fill]
  split_ifs <;> omega

/-- The queue is the entry at the read cursor before those of the ring with it taken. -/
theorem queue_eq_cons (hne : r.read ≠ r.write) : queue r = entryWord r r.read :: queue (popped r) := by
  have hfill := fill_popped h hne
  have hcount : r.fill / 4 = (popped r).fill / 4 + 1 := by omega
  have hfirst : entryAt r 0 = entryWord r r.read := by
    rw [entryAt, Nat.mul_zero, Nat.add_zero, Nat.mod_eq_of_lt h.read_lt]
  rw [queue, queue, Config.entryBytes, hcount, List.range_succ_eq_map, List.map_cons, hfirst, List.map_map]
  congr 1
  exact List.map_congr_left fun k _ => (entryAt_popped r k).symm

end

end Sys2Proof.Proofs.RingQueue
end

-- ==== What runs next: the order of one step (60_exceptions.md R234) ====
section
namespace Sys2Proof.Proofs.Order

open Sys2Proof Sys2Proof.Machine

/-! ## One equation per agent whose turn it is -/

/-- The gate is served at this boundary: it is open, and a service that has just ended leaves no step to the primary
context (R275, log 7). -/
def gateFirst (s : State) : Bool := gateOpen s && !(s.resumed && primaryHasStep s)

theorem gateFirst_of_closed {s : State} (h : gateOpen s = false) : gateFirst s = false := by simp [gateFirst, h]

/-- An open gate needs an idle sequencer with nothing waiting (R178). -/
theorem gateOpen_of_outstanding {s : State} (h : quiet s = false) : gateOpen s = false := by simp [gateOpen, h]

theorem gateOpen_of_service {s : State} (h : s.drain.inService = true) : gateOpen s = false := by simp [gateOpen, h]

theorem gateOpen_of_inactive {s : State} (h : s.drain.active = false) : gateOpen s = false := by simp [gateOpen, h]

section
variable {s : State}

theorem step_of_gate (h : gateFirst s = true) : step s = exec .evTimer s := by
  have hsched : schedule s = .run .evTimer s := if_pos h
  rw [step, hsched]

/-- With the gate not served the environment is next, then the agents. -/
theorem schedule_after_gate (h : gateFirst s = false) :
    schedule s =
      match dueEnv s with
      | some (a, rest) => .go (a.apply { s with inbox := rest })
      | none =>
        if quiet s = false then .go (boundary s)
        else if s.drain.inService then handlerStep s
        else primaryStep s :=
  if_neg (by rw [← gateFirst, h]; exact Bool.false_ne_true)

theorem step_of_env {a : EnvAction} {rest : List Input} (h : gateFirst s = false) (henv : dueEnv s = some (a, rest)) :
    step s = .next (a.apply { s with inbox := rest }) := by
  simp only [step, schedule_after_gate h, henv]

theorem step_of_outstanding (henv : dueEnv s = none) (hquiet : quiet s = false) : step s = .next (boundary s) := by
  simp only [step, schedule_after_gate (gateFirst_of_closed (gateOpen_of_outstanding hquiet)), henv, hquiet, if_true]

theorem schedule_of_handler (henv : dueEnv s = none) (hquiet : quiet s = true) (hservice : s.drain.inService = true) :
    schedule s = handlerStep s := by
  simp [schedule_after_gate (gateFirst_of_closed (gateOpen_of_service hservice)), henv, hquiet, hservice]

theorem schedule_of_primary (h : gateFirst s = false) (henv : dueEnv s = none) (hquiet : quiet s = true)
    (hservice : s.drain.inService = false) : schedule s = primaryStep s := by
  simp [schedule_after_gate h, henv, hquiet, hservice]

theorem step_of_entry (henv : dueEnv s = none) (hready : entryReady s = true) :
    step s =
      if paceDue s.pace.handler then exec (fetchEntry s) { s with pace := { s.pace with handler := s.pace.handler.tail } }
      else .next (boundary s) := by
  obtain ⟨hservice, hidle, hreq, -⟩ := (entryReady_iff s).1 hready
  rw [step, schedule_of_handler henv ((quiet_iff s).2 ⟨hidle, hreq⟩) hservice, handlerStep, if_pos hready]
  cases paceDue s.pace.handler <;> rfl

theorem step_of_service_end (henv : dueEnv s = none) (hquiet : quiet s = true) (hservice : s.drain.inService = true)
    (hready : entryReady s = false) : step s = .next (endService s) := by
  rw [step, schedule_of_handler henv hquiet hservice, handlerStep, if_neg (by rw [hready]; exact Bool.false_ne_true)]

theorem step_of_burst (h : gateFirst s = false) (henv : dueEnv s = none) (hquiet : quiet s = true)
    (hservice : s.drain.inService = false) (htodo : s.prim.todo ≠ []) : step s = .next (continueBurst s) := by
  rw [step, schedule_of_primary h henv hquiet hservice, primaryStep, if_pos htodo]

theorem step_of_reply (h : gateFirst s = false) (henv : dueEnv s = none) (hquiet : quiet s = true)
    (hservice : s.drain.inService = false) (htodo : s.prim.todo = []) (hreply : s.prim.replyDue = true) :
    step s = .next (sendReply { s with resumed := false }) := by
  rw [step, schedule_of_primary h henv hquiet hservice, primaryStep, if_neg (not_not_intro htodo), if_pos hreply]

end

/-! ## The inputs -/

theorem dueItem_cons (s : State) {item : Item} {rest : List Input} (h : s.inbox = { wait := 0, item := item } :: rest) :
    dueItem s = some (item, rest) := by
  simp [dueItem, h]

theorem dueItem_eq_some {s : State} {item : Item} {rest : List Input} (h : dueItem s = some (item, rest)) :
    s.inbox = { wait := 0, item := item } :: rest := by
  unfold dueItem at h
  split at h
  · next hinbox => cases h; exact hinbox
  · cases h

theorem dueItem_of_empty {s : State} (h : s.inbox = []) : dueItem s = none := by simp [dueItem, h]

theorem dueEnv_of_env {s : State} {a : EnvAction} {rest : List Input} (h : dueItem s = some (.env a, rest)) :
    dueEnv s = if a.permitted s then some (a, rest) else none := by
  simp only [dueEnv, h]

theorem dueEnv_eq_some {s : State} {a : EnvAction} {rest : List Input} (h : dueEnv s = some (a, rest)) :
    dueItem s = some (.env a, rest) ∧ a.permitted s = true := by
  unfold dueEnv at h
  split at h
  · next b after hitem =>
    split_ifs at h with hpermitted
    cases h
    exact ⟨hitem, hpermitted⟩
  · cases h

theorem dueEnv_of_none {s : State} (h : dueItem s = none) : dueEnv s = none := by simp only [dueEnv, h]

theorem dueEnv_of_empty {s : State} (h : s.inbox = []) : dueEnv s = none := dueEnv_of_none (dueItem_of_empty h)

/-- An input that is due has no wait for a boundary to shorten. -/
theorem elapse_of_due (item : Item) (rest : List Input) :
    elapse ({ wait := 0, item := item } :: rest) = { wait := 0, item := item } :: rest := rfl

@[simp] theorem boundary_inbox (s : State) : (boundary s).inbox = elapse s.inbox := by simp [boundary]

/-- A free primary context takes the input that is due, unless it is the environment's. -/
theorem primaryStep_of_free {s : State} (h : primaryFree s = true) :
    primaryStep s =
      match dueItem s with
      | some (.code c, rest) => takeItem (.code c) { s with inbox := rest, resumed := false }
      | some (.held i, rest) => takeItem (.held i) { s with inbox := rest, resumed := false }
      | _ => .go (boundary s) := by
  obtain ⟨-, -, -, htodo, hreply⟩ := (primaryFree_iff s).1 h
  rw [primaryStep, if_neg (not_not_intro htodo), hreply]
  rfl

theorem quiet_of_free {s : State} (h : primaryFree s = true) : quiet s = true := by
  obtain ⟨-, hidle, hreq, -⟩ := (primaryFree_iff s).1 h
  exact (quiet_iff s).2 ⟨hidle, hreq⟩

/-! ## The decoded word and the ring entry -/

/-- Settles O46: a due word closes the environment's turn, and gives the primary context the step a service left it. -/
theorem stepRunsDecodedWord : Obligations.StepRunsDecodedWord := by
  intro s c rest hfree hgate hinbox
  have hitem := dueItem_cons s hinbox
  obtain ⟨hservice, -, -, htodo, hreply⟩ := (primaryFree_iff s).1 hfree
  have hmid : midCommand s = false := (midCommand_iff s).2 ⟨htodo, hreply⟩
  have hfirst : gateFirst s = false := by
    obtain hclosed | hturn := hgate
    · exact gateFirst_of_closed hclosed
    · simp [gateFirst, hturn, primaryHasStep, hmid, hitem]
  have henv : dueEnv s = none := by simp only [dueEnv, hitem]
  have hsched : schedule s = takeItem (.code c) { s with inbox := rest, resumed := false } := by
    rw [schedule_of_primary hfirst henv (quiet_of_free hfree) hservice, primaryStep_of_free hfree, hitem]
  constructor
  · intro i hdecode
    simp only [step, hsched, takeItem, hdecode]
  · intro e hdecode
    simp only [step, hsched, takeItem, hdecode]

theorem paceDue_iff_headD (pauses : List Nat) : paceDue pauses = true ↔ pauses.headD 0 = 0 := by
  cases pauses <;> simp [paceDue]

/-- Settles O47: the handler's turn, with the entry taken apart into its bytes. -/
theorem stepRunsEntryAtReadCursor : Obligations.StepRunsEntryAtReadCursor := by
  intro s hready henv
  refine ⟨_, Bursts.joinDelay_toNat _ _, ?_⟩
  simp only [step_of_entry henv hready, paceDue_iff_headD, fetchEntry, RingQueue.decodeEntry_entryWord]

/-- Settles O48: neither way of the gate waiting for the primary context is met. -/
theorem stepServesGateFirst : Obligations.StepServesGateFirst := by
  intro s hopen hturn
  apply step_of_gate
  obtain hturn | hturn := hturn <;> simp [gateFirst, hopen, hturn]

/-! ## Boundaries (R234) -/

theorem paceTick_of_free {s : State} (h : primaryFree s = true) : paceTick s = s.pace := by
  obtain ⟨hservice, -, -, htodo, -⟩ := (primaryFree_iff s).1 h
  simp [paceTick, quiet_of_free h, hservice, htodo]

/-- With nothing outstanding the sequencer's part of a boundary does nothing. -/
theorem boundary_of_quiet {s : State} (h : quiet s = true) : boundary s = timerTick (countTick s) := by
  obtain ⟨hidle, hreq⟩ := (quiet_iff s).1 h
  rw [boundary, seqTick_of_no_request (by simpa using hreq), advanceSeq_idle (by simpa using hidle)]

/-- The timer's part of a boundary writes the drain's registers only. -/
theorem timerTick_eq (s : State) : timerTick s = { s with drain := (timerTick s).drain } := by
  unfold timerTick
  split
  · split <;> rfl
  · rfl

/-- Settles O49: an outstanding operation keeps both agents from acting; a free primary context with no input due has
nothing to do. -/
theorem busyStepIsBoundary : Obligations.BusyStepIsBoundary := by
  constructor
  · intro s hquiet henv
    refine ⟨step_of_outstanding henv hquiet, boundary_cyc s, rfl, ?_⟩
    simp only [countTick, paceTick_of_busy hquiet]
  · intro s hfree hclosed hitem
    have hquiet := quiet_of_free hfree
    have hboundary := boundary_of_quiet hquiet
    obtain ⟨hservice, -⟩ := (primaryFree_iff s).1 hfree
    refine ⟨?step, boundary_cyc s, hboundary, ?frame, fun hinactive => ?drain⟩
    case step =>
      rw [step, schedule_of_primary (gateFirst_of_closed hclosed) (dueEnv_of_none hitem) hquiet hservice,
        primaryStep_of_free hfree, hitem]
    case frame =>
      rw [hboundary, timerTick_eq]
      simp only [countTick, paceTick_of_free hfree]
    case drain => rw [hboundary, timerTick_inactive (s := countTick s) hinactive, countTick_drain]

/-! ## The environment's inputs -/

/-- Settles O52: a busy sequencer forbids the swap; an idle one makes it, its critical section leaving the mask at 0. -/
theorem routingSwapWaitsForIdle : Obligations.RoutingSwapWaitsForIdle := by
  intro s rt rest hinbox
  have henv := dueEnv_of_env (dueItem_cons s hinbox)
  constructor
  · intro hbusy
    have hnone : dueEnv s = none := henv.trans (if_neg (by simp [EnvAction.permitted, hbusy]))
    refine ⟨boundary s, step_of_outstanding hnone (by simp [quiet, hbusy]), by simp, ?_⟩
    rw [boundary_inbox, hinbox, elapse_of_due]
  · intro hidle hclosed
    have hsome : dueEnv s = some (.swap rt, rest) := henv.trans (if_pos (by simp [EnvAction.permitted, busy, hidle]))
    exact step_of_env (gateFirst_of_closed hclosed) hsome

/-- Settles O54: an outstanding operation forbids the change; a quiet block makes it and puts the mask back. -/
theorem clockChangeKeepsState : Obligations.ClockChangeKeepsState := by
  intro s hz rest hinbox
  have henv := dueEnv_of_env (dueItem_cons s hinbox)
  constructor
  · intro hquiet
    have hnone : dueEnv s = none := henv.trans (if_neg (by simp [EnvAction.permitted, hquiet]))
    refine ⟨step_of_outstanding hnone hquiet, by simp, ?_⟩
    rw [boundary_inbox, hinbox, elapse_of_due]
  · intro hquiet hservice hclosed
    have hsome : dueEnv s = some (.setClock hz, rest) :=
      henv.trans (if_pos (by simp [EnvAction.permitted, hquiet, hservice]))
    exact ⟨_, step_of_env (gateFirst_of_closed hclosed) hsome, rfl, rfl⟩

/-! ## What an instruction does, by who takes it -/

/-- The effect of a command or an event on a free primary context (41_command_port.md, 42_asid_ring.md,
43_asid_rate.md); the other instructions have none there. -/
def effectOf : Instr → State → State
  | .cmdWrite n operands => startBurst (writeBurst n operands)
  | .cmdRead address => startRead address
  | .cmdCycledWrite n operands => startBurst (cycledWriteBurst n operands)
  | .cmdPause => forward (.subop 0x0A)
  | .cmdUnpause => forward (.subop 0x0B)
  | .cmdMute => fun s => { s with mute := true }
  | .cmdUnmute => fun s => { s with mute := false }
  | .cmdResetSid => pulseResN
  | .cmdDisableSid => forward (.subop 0x0F)
  | .cmdEnableSid => forward (.subop 0x10)
  | .cmdClearBus => forward (.subop 0x11)
  | .cmdConfig sub => forwardConfig sub
  | .cmdResetMcu => powerOnReset
  | .cmdBootloader => forward (.subop 0x14)
  | .cmdUnassigned sub => fun s => if isReservedSubop sub then forward (.subop sub) s else s
  | .cfgReadConfig operands => forwardConfig (0x30 :: operands)
  | .cfgRunAutoDetect operands => forwardConfig (0x5B :: operands)
  | .cfgPlayer control operands => forwardConfig ((0b111#3 ++ control : Byte) :: operands)
  | .evPlayStart => newTune
  | .evPlayStop => id
  | .evSetBaseRate r => setBaseRate r
  | .evFrame k => takeFrame k
  | .evPush register value delay => fun s => pushEntry register value delay (ensureActive s)
  | .busWrite .. | .busCycledWrite .. | .busCycledRead .. | .busCycledDelay .. | .evTimer | .ringEntry .. => id

/-- Commands and events are the primary context's. -/
theorem exec_eq_byPrimary {i : Instr} (h : i.format = .cmd ∨ i.format = .aev) (s : State) :
    exec i s = byPrimary i (effectOf i) s := by
  cases i
  case busWrite | busCycledWrite | busCycledRead | busCycledDelay | evTimer | ringEntry =>
    obtain h | h := h <;> cases h
  all_goals rfl

/-- A request is a requester's. -/
theorem exec_eq_byRequester {i : Instr} (h : i.format = .req) (s : State) :
    ∃ r, exec i s = byRequester i r s := by
  cases i
  case busWrite | busCycledWrite | busCycledRead | busCycledDelay => exact ⟨_, rfl⟩
  all_goals cases h

/-- A free primary context gives a command or an event its effect. -/
theorem exec_of_free {i : Instr} {s : State} (hformat : i.format = .cmd ∨ i.format = .aev)
    (hfree : primaryFree s = true) : exec i s = .next (effectOf i s) :=
  (exec_eq_byPrimary hformat s).trans (byPrimary_of_free hfree)

/-- What an instruction that answers has done (R26, R126, R178, U5). -/
inductive Answered (i : Instr) (s : State) : State → Prop
  | effect (hfree : primaryFree s = true) : Answered i s (effectOf i s)
  | held (hheld : primaryFree s = false) :
    Answered i s { s with inbox := { wait := 0, item := .held i } :: s.inbox }
  | presented (r : BusRequest) (hvalid : s.req.valid = false) : Answered i s (present r s)
  | served (hopen : gateOpen s = true) : Answered i s (startService s)
  | delivered (register value : Byte) (delay : Cycles) (hready : entryReady s = true) :
    Answered i s (deliverEntry register value delay s)
  | ignored : Answered i s s

theorem byPrimary_answered {i : Instr} {s t : State} (h : byPrimary i (effectOf i) s = .next t) : Answered i s t := by
  cases hfree : primaryFree s with
  | true => rw [byPrimary_of_free hfree] at h; cases h; exact .effect hfree
  | false => rw [byPrimary_of_held hfree] at h; cases h; exact .held hfree

theorem byRequester_answered {i : Instr} {r : BusRequest} {s t : State} (h : byRequester i r s = .next t) :
    Answered i s t := by
  obtain ⟨hheld, heq⟩ | ⟨-, -, -, heq⟩ | ⟨-, -, hvalid, heq⟩ := byRequester_cases i r s <;> rw [heq] at h <;> cases h
  · refine .held (Bool.eq_false_iff.2 fun hfree => ?_)
    obtain ⟨hservice, -, -, htodo, hreply⟩ := (primaryFree_iff s).1 hfree
    have hmid := (midCommand_iff s).2 ⟨htodo, hreply⟩
    simp [hservice, hmid] at hheld
  · exact .presented r hvalid

theorem exec_answered {i : Instr} {s t : State} (h : exec i s = .next t) : Answered i s t := by
  cases hformat : i.format with
  | cmd => exact byPrimary_answered (exec_eq_byPrimary (.inl hformat) s ▸ h)
  | aev => exact byPrimary_answered (exec_eq_byPrimary (.inr hformat) s ▸ h)
  | req =>
    obtain ⟨r, heq⟩ := exec_eq_byRequester hformat s
    exact byRequester_answered (heq ▸ h)
  | internal =>
    cases i <;> cases hformat
    change execEvTimer s = .next t at h
    unfold execEvTimer at h
    split_ifs at h with hopen <;> cases h
    · exact .served hopen
    · exact .ignored
  | ent =>
    cases i <;> cases hformat
    rename_i register value delay
    change execRingEntry register value delay s = .next t at h
    unfold execRingEntry at h
    split_ifs at h with hready <;> cases h
    · exact .delivered register value delay hready
    · exact .ignored

/-- Settles O10: with the requester not held, the request that waits refuses the second. -/
theorem secondRequestRefused : Obligations.SecondRequestRefused := by
  intro s hservice hmid hvalid
  have hrefused (i : Instr) (r : BusRequest) : byRequester i r s = .refused .secondRequester := by
    simp [byRequester, hservice, hmid, hvalid]
  exact ⟨fun _ _ => hrefused _ _, fun _ _ _ => hrefused _ _, fun _ _ => hrefused _ _, fun _ => hrefused _ _⟩

/-- Settles O11: a command or an event by the primary context's rule, a bus operation by the requester's. -/
theorem heldInputIsKept : Obligations.HeldInputIsKept := by
  intro i s hheld
  obtain ⟨hformat, hfree⟩ | ⟨hformat, hheld⟩ := hheld
  · rw [exec_eq_byPrimary hformat, byPrimary_of_held hfree]
  · obtain ⟨r, heq⟩ := exec_eq_byRequester hformat s
    rw [heq, byRequester, if_pos (by simpa using hheld)]

/-! ## What a step has done -/

/-- The next state of a step, by the agent that moved. -/
inductive Moved (s : State) : State → Prop
  | served (hopen : gateOpen s = true) : Moved s (startService s)
  | environment {a : EnvAction} {rest : List Input} (henv : dueEnv s = some (a, rest)) :
    Moved s (a.apply { s with inbox := rest })
  | ticked : Moved s (boundary s)
  | delivered (register value : Byte) (delay : Cycles) (hready : entryReady s = true) :
    Moved s (deliverEntry register value delay { s with pace := { s.pace with handler := s.pace.handler.tail } })
  | serviceEnded (hservice : s.drain.inService = true) : Moved s (endService s)
  | issued (hquiet : quiet s = true) :
    Moved s (issueNext { s with pace := { s.pace with primary := s.pace.primary.tail }, resumed := false })
  | replied : Moved s (sendReply { s with resumed := false })
  | ignoredInput {c : Code} {rest : List Input} (hitem : dueItem s = some (.code c, rest)) :
    Moved s { s with inbox := rest, resumed := false }
  | tookInput {i : Instr} {item : Item} {rest : List Input} {t : State} (hitem : dueItem s = some (item, rest))
    (hagent : ∀ a, item ≠ .env a) (hfree : primaryFree s = true)
    (hanswered : Answered i { s with inbox := rest, resumed := false } t) : Moved s t

theorem gateFirst_open {s : State} (h : gateFirst s = true) : gateOpen s = true := by
  unfold gateFirst at h
  exact (Bool.and_eq_true_iff.1 h).1

theorem exec_evTimer_of_open {s : State} (h : gateOpen s = true) : exec .evTimer s = .next (startService s) :=
  if_pos h

theorem exec_fetchEntry_of_ready {s t : State} (h : entryReady t = true) :
    ∃ register value delay, exec (fetchEntry s) t = .next (deliverEntry register value delay t) :=
  ⟨_, _, _, if_pos h⟩

/-- The primary context's turn: its burst, its reply, an input, or a boundary. -/
theorem primaryStep_moved {s t : State} (hquiet : quiet s = true) (hservice : s.drain.inService = false)
    (hsched : schedule s = primaryStep s) (h : step s = .next t) : Moved s t := by
  rw [step, hsched] at h
  by_cases htodo : s.prim.todo = []
  case neg =>
    rw [primaryStep, if_pos htodo] at h
    cases h
    unfold continueBurst
    split
    · exact .issued hquiet
    · exact .ticked
  cases hreply : s.prim.replyDue
  case true =>
    rw [primaryStep, if_neg (not_not_intro htodo), if_pos hreply] at h
    cases h
    exact .replied
  obtain ⟨hidle, hvalid⟩ := (quiet_iff s).1 hquiet
  have hfree : primaryFree s = true := (primaryFree_iff s).2 ⟨hservice, hidle, hvalid, htodo, hreply⟩
  rw [primaryStep_of_free hfree] at h
  cases hitem : dueItem s with
  | none => rw [hitem] at h; cases h; exact .ticked
  | some due =>
    obtain ⟨item, rest⟩ := due
    rw [hitem] at h
    cases item with
    | env a => cases h; exact .ticked
    | held i => exact .tookInput hitem nofun hfree (exec_answered h)
    | code c =>
      cases hdecode : decode s.par c with
      | error e =>
        simp only [takeItem, hdecode] at h
        cases h
        exact .ignoredInput hitem
      | ok i =>
        simp only [takeItem, hdecode] at h
        exact .tookInput hitem nofun hfree (exec_answered h)

theorem step_moved {s t : State} (h : step s = .next t) : Moved s t := by
  cases hgate : gateFirst s
  case true =>
    have hopen := gateFirst_open hgate
    rw [step_of_gate hgate, exec_evTimer_of_open hopen] at h
    cases h
    exact .served hopen
  cases henv : dueEnv s
  case some due =>
    rw [step_of_env hgate henv] at h
    cases h
    exact .environment henv
  cases hquiet : quiet s
  case false =>
    rw [step_of_outstanding henv hquiet] at h
    cases h
    exact .ticked
  cases hservice : s.drain.inService
  case false => exact primaryStep_moved hquiet hservice (schedule_of_primary hgate henv hquiet hservice) h
  cases hready : entryReady s
  case false =>
    rw [step_of_service_end henv hquiet hservice hready] at h
    cases h
    exact .serviceEnded hservice
  rw [step_of_entry henv hready] at h
  split at h
  · obtain ⟨register, value, delay, heq⟩ := exec_fetchEntry_of_ready (s := s)
      (t := { s with pace := { s.pace with handler := s.pace.handler.tail } }) hready
    rw [heq] at h
    cases h
    exact .delivered register value delay hready
  · cases h
    exact .ticked

/-! ## Every step answers (R230) -/

/-- Wherever no request waits, an instruction answers. -/
theorem exec_answers_of_no_request (i : Instr) {s : State} (h : s.req.valid = false) : ∃ t, exec i s = .next t := by
  obtain hnext | ⟨-, hvalid⟩ := exec_answers i s
  · exact hnext
  · rw [h] at hvalid
    cases hvalid

/-- What comes of the action a schedule has chosen. -/
def perform : Machine.Action → Host.Outcome State Fault Refusal
  | .run i s => exec i s
  | .go s => .next s

theorem step_eq_perform (s : State) : step s = perform (schedule s) := rfl

theorem takeItem_answers (item : Item) {s : State} (h : s.req.valid = false) :
    ∃ t, perform (takeItem item s) = .next t := by
  cases item with
  | code c =>
    cases hdecode : decode s.par c with
    | ok i => simpa only [takeItem, hdecode, perform] using exec_answers_of_no_request i h
    | error e => exact ⟨s, by simp only [takeItem, hdecode, perform]⟩
  | held i => exact exec_answers_of_no_request i h
  | env a => exact ⟨s, rfl⟩

theorem primaryStep_answers {s : State} (h : s.req.valid = false) : ∃ t, perform (primaryStep s) = .next t := by
  unfold primaryStep
  split_ifs
  · exact ⟨_, rfl⟩
  · exact ⟨_, rfl⟩
  · split
    · exact takeItem_answers _ (s := { s with inbox := _, resumed := false }) h
    · exact takeItem_answers _ (s := { s with inbox := _, resumed := false }) h
    · exact ⟨_, rfl⟩

/-- Settles O50: agent by agent; an instruction runs only with no request waiting, where it answers. -/
theorem everyStepContinues : Obligations.EveryStepContinues := by
  intro s
  cases hgate : gateFirst s
  case true => exact ⟨_, (step_of_gate hgate).trans (exec_evTimer_of_open (gateFirst_open hgate))⟩
  cases henv : dueEnv s
  case some due => exact ⟨_, step_of_env hgate henv⟩
  cases hquiet : quiet s
  case false => exact ⟨_, step_of_outstanding henv hquiet⟩
  obtain ⟨-, hvalid⟩ := (quiet_iff s).1 hquiet
  cases hservice : s.drain.inService
  case false =>
    rw [step_eq_perform, schedule_of_primary hgate henv hquiet hservice]
    exact primaryStep_answers hvalid
  cases hready : entryReady s
  case false => exact ⟨_, step_of_service_end henv hquiet hservice hready⟩
  rw [step_of_entry henv hready]
  split
  · exact exec_answers_of_no_request _ (s := { s with pace := _ }) hvalid
  · exact ⟨_, rfl⟩

/-! ## The counter (R34, R239) -/

theorem forwardConfig_cyc (sub : List Byte) (s : State) : (forwardConfig sub s).cyc = s.cyc := by
  unfold forwardConfig
  split <;> rfl

/-- No command and no event counts. -/
theorem effectOf_cyc (i : Instr) (s : State) : (effectOf i s).cyc = s.cyc := by
  cases i
  case cmdUnassigned => unfold effectOf; dsimp only; split <;> rfl
  case cmdConfig | cfgReadConfig | cfgRunAutoDetect | cfgPlayer => exact forwardConfig_cyc _ s
  all_goals simp [effectOf, powerOnReset, pulseResN]

theorem answered_cyc {i : Instr} {s t : State} (h : Answered i s t) : t.cyc = s.cyc := by
  cases h with
  | effect => exact effectOf_cyc i s
  | held | ignored => rfl
  | presented | served | delivered => simp

theorem env_apply_cyc (a : EnvAction) (s : State) : (a.apply s).cyc = s.cyc := by cases a <;> rfl

/-- Settles O51: of all that a step can do the boundary alone counts. -/
theorem counterMovesByTicksOnly : Obligations.CounterMovesByTicksOnly := by
  intro s t h
  cases step_moved h with
  | ticked => exact .inr ⟨boundary_cyc s, rfl⟩
  | served | delivered | serviceEnded | issued => simp
  | environment => exact .inl (env_apply_cyc _ _)
  | replied | ignoredInput => exact .inl rfl
  | tookInput _ _ _ hanswered => exact .inl ((answered_cyc hanswered).trans rfl)

/-! ## The mask of the critical sections (R37, R70, R233) -/

/-- `t` does not hold the mask unless `s` does. -/
def MaskNotRaised (s t : State) : Prop := t.drain.irqMask = true → s.drain.irqMask = true

theorem maskNotRaised_of_eq {s t : State} (h : t.drain.irqMask = s.drain.irqMask) : MaskNotRaised s t :=
  fun ht => h ▸ ht

theorem shrinkToDefault_maskNotRaised (s : State) : MaskNotRaised s (shrinkToDefault s) := by
  unfold MaskNotRaised
  rw [shrinkToDefault_irqMask]
  split
  · nofun
  · exact id

theorem newTune_maskNotRaised (s : State) : MaskNotRaised s (newTune s) :=
  shrinkToDefault_maskNotRaised
    { s with rate := { s.rate with hist := [], baseRate := if s.rate.rateExplicit then s.rate.baseRate else 0 } }

theorem ensureActive_irqMask (s : State) : (ensureActive s).drain.irqMask = s.drain.irqMask := by
  unfold ensureActive
  split <;> rfl

theorem adjustRate_maskNotRaised (calcRate : Nat) (s : State) : MaskNotRaised s (adjustRate calcRate s) := by
  unfold adjustRate
  split_ifs
  · intro h
    simp [grow_eq] at h
  · exact maskNotRaised_of_eq (by simp)
  · exact maskNotRaised_of_eq (by simp)

theorem noteArrival_maskNotRaised (s : State) : MaskNotRaised s (noteArrival s) := by
  unfold noteArrival
  split
  · exact newTune_maskNotRaised s
  · exact id

theorem takeFrame_maskNotRaised (k : BitVec 2) (s : State) : MaskNotRaised s (takeFrame k s) := by
  unfold takeFrame
  split
  · intro h
    have harrival := adjustRate_maskNotRaised _ _ h
    have hactive := noteArrival_maskNotRaised (ensureActive s) (by simpa [trackArrival] using harrival)
    rwa [ensureActive_irqMask] at hactive
  · exact maskNotRaised_of_eq (by simp [ensureActive_irqMask])

theorem forwardConfig_drain (sub : List Byte) (s : State) : (forwardConfig sub s).drain = s.drain := by
  unfold forwardConfig
  split <;> rfl

theorem effectOf_maskNotRaised (i : Instr) (s : State) : MaskNotRaised s (effectOf i s) := by
  cases i
  case cmdResetMcu => intro h; cases h
  case evPlayStart => exact newTune_maskNotRaised s
  case evFrame k => exact takeFrame_maskNotRaised k s
  case cmdUnassigned => apply maskNotRaised_of_eq; unfold effectOf; dsimp only; split <;> rfl
  case cmdConfig | cfgReadConfig | cfgRunAutoDetect | cfgPlayer =>
    exact maskNotRaised_of_eq (congrArg _ (forwardConfig_drain _ s))
  all_goals exact maskNotRaised_of_eq (by simp [effectOf, ensureActive_irqMask, pulseResN])

theorem endService_irqMask (s : State) : (endService s).drain.irqMask = s.drain.irqMask := by
  unfold endService
  dsimp only
  split_ifs <;> rfl

theorem startService_irqMask (s : State) : (startService s).drain.irqMask = s.drain.irqMask := by
  unfold startService
  dsimp only
  split_ifs
  · rfl
  · exact endService_irqMask _

theorem answered_maskNotRaised {i : Instr} {s t : State} (h : Answered i s t) : MaskNotRaised s t := by
  cases h with
  | effect => exact effectOf_maskNotRaised i s
  | held | ignored => exact id
  | presented => exact maskNotRaised_of_eq (by simp)
  | served => exact maskNotRaised_of_eq (startService_irqMask s)
  | delivered => exact maskNotRaised_of_eq (by simp [deliverEntry])

/-- The property is kept where the mask is not raised and the inputs stay. -/
theorem maskInv_of_same_inbox {s t : State} (h : MaskInv s) (hmask : MaskNotRaised s t) (hinbox : t.inbox = s.inbox) :
    MaskInv t :=
  fun ht => hinbox ▸ h (hmask ht)

/-- Where the next input is no swap, the mask is 0, and stays 0 where it is not raised. -/
theorem maskInv_of_other_input {s t : State} (h : MaskInv s) (hmask : MaskNotRaised s t) {item : Item}
    {rest : List Input} (hitem : dueItem s = some (item, rest)) (hswap : ∀ rt, item ≠ .env (.swap rt)) :
    MaskInv t := by
  intro ht
  obtain ⟨wait, rt, after, hinbox⟩ := h (hmask ht)
  rw [dueItem_eq_some hitem] at hinbox
  cases hinbox
  exact absurd rfl (hswap rt)

theorem maskInv_boundary {s : State} (h : MaskInv s) : MaskInv (boundary s) := by
  intro ht
  obtain ⟨wait, rt, rest, hinbox⟩ := h (by simpa [boundary] using ht)
  exact ⟨wait - 1, rt, rest, by rw [boundary_inbox, hinbox]; rfl⟩

/-- The environment raises the mask only together with the swap that ends its section. -/
theorem maskInv_environment {s : State} (h : MaskInv s) {a : EnvAction} {rest : List Input}
    (henv : dueEnv s = some (a, rest)) : MaskInv (a.apply { s with inbox := rest }) := by
  obtain ⟨hitem, -⟩ := dueEnv_eq_some henv
  cases a with
  | swap rt => nofun
  | powerOn => nofun
  | enterSwap wait rt => exact fun _ => ⟨wait, rt, rest, rfl⟩
  | setClock hz => exact maskInv_of_other_input h (maskNotRaised_of_eq rfl) hitem nofun
  | pulseReset => exact maskInv_of_other_input h (maskNotRaised_of_eq rfl) hitem nofun

/-- Settles O53: agent by agent; an input is taken only where it is no swap, so with the mask at 0. -/
theorem maskIsHeldForSwapOnly : Obligations.MaskIsHeldForSwapOnly := by
  refine ⟨nofun, fun s t hmask hstep => ?_⟩
  cases step_moved hstep with
  | served => exact maskInv_of_same_inbox hmask (maskNotRaised_of_eq (startService_irqMask s)) (by simp)
  | environment henv => exact maskInv_environment hmask henv
  | ticked => exact maskInv_boundary hmask
  | delivered =>
    exact maskInv_of_same_inbox hmask (maskNotRaised_of_eq (by simp [deliverEntry])) (by simp)
  | serviceEnded => exact maskInv_of_same_inbox hmask (maskNotRaised_of_eq (endService_irqMask s)) (by simp)
  | issued => exact maskInv_of_same_inbox hmask (maskNotRaised_of_eq (by simp)) (by simp)
  | replied => exact maskInv_of_same_inbox hmask id rfl
  | ignoredInput hitem => exact maskInv_of_other_input hmask id hitem nofun
  | tookInput hitem hagent _ hanswered =>
    have hnotRaised := answered_maskNotRaised hanswered
    exact maskInv_of_other_input hmask hnotRaised hitem fun rt => hagent (.swap rt)

end Sys2Proof.Proofs.Order
end

-- ==== Arrivals, the estimate and the target (43_asid_rate.md) ====
section
namespace Sys2Proof.Proofs.Arrivals

open Sys2Proof Sys2Proof.Machine Sys2Proof.Proofs.RateAdjustment Sys2Proof.Proofs.RingQueue

/-! ## The history (R28, R203) -/

/-- An arrival is put behind the history, of which at most eight entries are kept. -/
theorem pushHistory_eq_drop {hist : List Ticks} (h : hist.length ≤ 8) (now : Ticks) :
    pushHistory hist now = (hist ++ [now]).drop (hist.length + 1 - 8) := by
  unfold pushHistory Config.histLen
  split
  · next hfull => cases hist with
    | nil => cases hfull
    | cons oldest later => simp [hfull]
  · next hroom => rw [show hist.length + 1 - 8 = 0 by omega, List.drop_zero]

/-- Settles O32: by induction from the last arrival; what is kept of it and its forerunners is kept of the last eight. -/
theorem historyKeepsLastEight : Obligations.HistoryKeepsLastEight := by
  intro arrivals
  induction arrivals using List.reverseRecOn with
  | nil => rfl
  | append_singleton earlier now ih =>
    have hlength : (earlier.drop (earlier.length - 8)).length ≤ 8 := by rw [List.length_drop]; omega
    rw [List.foldl_append, List.foldl_cons, List.foldl_nil, ih, pushHistory_eq_drop hlength,
      ← List.drop_append_of_le_length (Nat.sub_le _ _), List.drop_drop, List.length_drop, List.length_append,
      List.length_singleton]
    congr 1
    omega

theorem historyRate_of_short {hist : List Ticks} (h : hist.length < 8) : historyRate hist = 0 := if_pos h

/-- The span of eight arrivals, over their seven intervals. -/
theorem historyRate_of_eight {hist : List Ticks} (h : hist.length = 8) :
    historyRate hist = (hist.getLastD 0 - hist.headD 0).toNat / 7 :=
  if_neg (by rw [h]; decide)

theorem length_evenArrivals (start d : Ticks) (n : Nat) :
    ((List.range n).map fun i => start + BitVec.ofNat 32 i * d).length = n := by simp

/-- Up to eight arrivals are all kept. -/
theorem foldl_pushHistory_of_le {arrivals : List Ticks} (h : arrivals.length ≤ 8) :
    arrivals.foldl pushHistory [] = arrivals := by
  rw [historyKeepsLastEight arrivals, Nat.sub_eq_zero_of_le h, List.drop_zero]

/-- The start of an even row of arrivals does not show in its span, which is seven spacings. -/
theorem evenArrivals_span {start d : Ticks} (h : 7 * d.toNat < 2 ^ 32) :
    (start + BitVec.ofNat 32 7 * d - (start + BitVec.ofNat 32 0 * d)).toNat = 7 * d.toNat := by
  have hspan : start + BitVec.ofNat 32 7 * d - (start + BitVec.ofNat 32 0 * d) = 7#32 * d := by
    rw [BitVec.zero_mul, BitVec.add_zero, BitVec.add_comm, BitVec.add_sub_cancel]
  rw [hspan, BitVec.toNat_mul]
  exact Nat.mod_eq_of_lt h

/-- Settles O31: eight recorded arrivals are the history itself, whose rate is their span over seven. -/
theorem evenArrivalsGiveTheirSpacing : Obligations.EvenArrivalsGiveTheirSpacing := by
  refine ⟨fun hist => historyRate_of_short, fun t0 t1 t2 t3 t4 t5 t6 t7 => ?any, fun start d hwidth n hn => ?even⟩
  case any =>
    rw [foldl_pushHistory_of_le (arrivals := [t0, t1, t2, t3, t4, t5, t6, t7]) (Nat.le_refl 8), historyRate_of_eight rfl]
    show (t7 - t0).toNat / 7 = _
    rw [BitVec.toNat_sub, Nat.add_comm]
  case even =>
    have hlength := length_evenArrivals start d n
    rw [foldl_pushHistory_of_le (hlength.symm ▸ hn)]
    obtain hlt | rfl := Nat.lt_or_eq_of_le hn
    · rw [historyRate_of_short (hlength.symm ▸ hlt), if_neg (Nat.ne_of_lt hlt)]
    · rw [historyRate_of_eight hlength, if_pos rfl]
      refine (congrArg (· / 7) (evenArrivals_span hwidth)).trans ?_
      exact Nat.mul_div_cancel_left _ (by decide)

/-! ## The chip estimate (R200, R202) -/

theorem ageEstimate_multiAge {s : State} (h : s.rate.multiAge ≤ 30) :
    (ageEstimate s).rate.multiAge = min (s.rate.multiAge + 1) 30 := by
  show (if s.rate.multiAge < 30 then s.rate.multiAge + 1 else s.rate.multiAge) = _
  split_ifs <;> omega

theorem ageEstimate_chipsEst {s : State} (h : s.rate.multiAge ≤ 30) :
    (ageEstimate s).rate.chipsEst = if s.rate.multiAge + 1 < 30 then s.rate.chipsEst else 1 := by
  show (if 30 ≤ (ageEstimate s).rate.multiAge then 1 else s.rate.chipsEst) = _
  rw [ageEstimate_multiAge h]
  split_ifs <;> omega

/-- Settles O33: by induction on the messages, the age being the number of them up to 30. -/
theorem estimateFallsAfterThirtyFrames : Obligations.EstimateFallsAfterThirtyFrames := by
  intro s n hzero
  induction n with
  | zero => simp [hzero]
  | succ n ih =>
    obtain ⟨hage, hchips⟩ := ih
    have hle : (ageEstimate^[n] s).rate.multiAge ≤ 30 := by omega
    rw [Function.iterate_succ_apply', ageEstimate_multiAge hle, ageEstimate_chipsEst hle, hage, hchips]
    constructor
    · omega
    · split_ifs <;> omega

/-! ## The width of the target (R212) -/

/-- A nudge at most doubles a target, and the clamp raises it no further than the baseline. -/
theorem targetRate_lt {calcRate : Nat} (h : calcRate ≤ (2 ^ 32 - 1) / 7) (s : State) :
    targetRate calcRate s < 2 ^ 32 := by
  have hbase := s.rate.baseRate.isLt
  have hshare := Nat.div_le_self calcRate s.rate.chipsEst
  have hnudge := nudgeTarget_le s.par s.ring (calcRate / s.rate.chipsEst)
  have hclamp := clampTarget_le s.rate.baseRate.toNat (nudgeTarget s.par s.ring (calcRate / s.rate.chipsEst))
  unfold targetRate
  omega

/-- Settles O38: an average is at most a seventh of the counter's range, which leaves room for the nudge. -/
theorem targetFitsRateRegister : Obligations.TargetFitsRateRegister := fun s hist =>
  ⟨targetRate_lt (historyRate_le hist) s, (historyRate_le hist).trans_lt (by decide)⟩

/-! ## A new tune (R183) -/

/-- The rate registers after `NewTune`. -/
def newTuneRate (q : Rate) : Rate := { q with hist := [], baseRate := if q.rateExplicit then q.baseRate else 0 }

/-- The size's reset does not see the rate registers, nor `NewTune` anything but them. -/
theorem newTune_eq (s : State) :
    newTune s =
      { s with
        ring := (shrinkToDefault s).ring
        drain := (shrinkToDefault s).drain
        rate := newTuneRate s.rate } := by
  unfold newTune shrinkToDefault
  dsimp only
  split
  · unfold critical setMask
    dsimp only
    split <;> rfl
  · rfl

theorem decode_aev_of_code_zero {w : EventWord} (h : w.code = 0) (p : Config.Params) :
    decode p (.aev w) = .ok .evPlayStart := by
  show decodeEvent w = _
  rw [decodeEvent, if_pos h]

/-- Settles O26: `NewTune` by its equation, its ring and its mask by those of the size's reset. -/
theorem playStartBeginsNewTune : Obligations.PlayStartBeginsNewTune := by
  refine ⟨fun p _ hcode => decode_aev_of_code_zero hcode p, fun s hfree hring => ?_⟩
  obtain ⟨hdrain, -⟩ := shrinkToDefault_outside_ring s
  have hshrunk := shrinkToDefault_ring_eq hring
  have hbase : (newTuneRate s.rate).baseRate = if s.rate.rateExplicit = false then 0 else s.rate.baseRate := by
    cases hexplicit : s.rate.rateExplicit <;> simp [newTuneRate, hexplicit]
  refine ⟨_, Order.exec_of_free (i := .evPlayStart) (.inr rfl) hfree, ?_⟩
  rw [Order.effectOf, newTune_eq]
  exact ⟨rfl, hbase, rfl, hshrunk ▸ queue_shrunk hring, hshrunk, hdrain, rfl⟩

/-! ## `EV_FRAME(0)` up to its adjustment (R200, R201, R203) -/

/-- The state with the arrival noted, the estimate aged and the history extended. -/
def tracked (s : State) : State := (trackArrival s.cyc (ageEstimate (noteArrival s))).1

theorem newFrame_eq (s : State) : newFrame s = adjustRate (historyRate (tracked s).rate.hist) (tracked s) := rfl

theorem noteArrival_of_gap {s : State} (h : isGap s = true) :
    noteArrival s =
      { s with
        ring := (shrinkToDefault s).ring
        drain := (shrinkToDefault s).drain
        rate := { newTuneRate s.rate with lastArrival := s.cyc, lastValid := true } } := by
  rw [noteArrival, if_pos h, newTune_eq]

theorem noteArrival_of_no_gap {s : State} (h : isGap s = false) :
    noteArrival s = { s with rate := { s.rate with lastArrival := s.cyc, lastValid := true } } := by
  rw [noteArrival, if_neg (by rw [h]; exact Bool.false_ne_true)]

theorem tracked_ring_drain (s : State) :
    (tracked s).ring = (if isGap s then (shrinkToDefault s).ring else s.ring) ∧
      (tracked s).drain = (if isGap s then (shrinkToDefault s).drain else s.drain) := by
  show (noteArrival s).ring = _ ∧ (noteArrival s).drain = _
  cases hgap : isGap s
  · rw [noteArrival_of_no_gap hgap]; exact ⟨rfl, rfl⟩
  · rw [noteArrival_of_gap hgap]; exact ⟨rfl, rfl⟩

theorem tracked_frame (s : State) : { tracked s with rate := s.rate, ring := s.ring, drain := s.drain } = s := by
  show { noteArrival s with rate := s.rate, ring := s.ring, drain := s.drain } = s
  cases hgap : isGap s
  · rw [noteArrival_of_no_gap hgap]
  · rw [noteArrival_of_gap hgap]

/-- The arrival is tracked in the registers of `EV_FRAME(0)` alone: the rate in use and the explicit flag stay. -/
theorem tracked_rate_kept (s : State) :
    (tracked s).rate.lastArrival = s.cyc ∧ (tracked s).rate.lastValid = true ∧
      (tracked s).rate.rateExplicit = s.rate.rateExplicit ∧ (tracked s).rate.correctedRate = s.rate.correctedRate ∧
        (tracked s).rate.multiAge = (ageEstimate s).rate.multiAge ∧
          (tracked s).rate.chipsEst = (ageEstimate s).rate.chipsEst := by
  simp only [tracked, trackArrival, ageEstimate]
  cases hgap : isGap s
  · rw [noteArrival_of_no_gap hgap]; exact ⟨rfl, rfl, rfl, rfl, rfl, rfl⟩
  · rw [noteArrival_of_gap hgap]; exact ⟨rfl, rfl, rfl, rfl, rfl, rfl⟩

/-- A gap leaves the arrival alone in the history. -/
theorem tracked_hist_gap {s : State} (h : isGap s = true) : (tracked s).rate.hist = [s.cyc] := by
  simp only [tracked, trackArrival, ageEstimate, noteArrival_of_gap h]
  rfl

theorem tracked_hist_no_gap {s : State} (h : isGap s = false) (hlength : s.rate.hist.length ≤ 8) :
    (tracked s).rate.hist = (s.rate.hist ++ [s.cyc]).drop (s.rate.hist.length + 1 - 8) := by
  simp only [tracked, trackArrival, ageEstimate, noteArrival_of_no_gap h]
  exact pushHistory_eq_drop hlength s.cyc

/-- A full history without a baseline gives one, its rate; a history that is not full has the rate 0, no baseline. -/
theorem trackArrival_baseRate (now : Ticks) (s : State) :
    (trackArrival now s).1.rate.baseRate =
      if s.rate.rateExplicit = false ∧ s.rate.baseRate = 0 then
        BitVec.ofNat 32 (historyRate (trackArrival now s).1.rate.hist)
      else s.rate.baseRate := by
  show (if (pushHistory s.rate.hist now).length < 8 then s.rate.baseRate
    else if s.rate.rateExplicit = false ∧ s.rate.baseRate = 0 then
      BitVec.ofNat 32 (historyRate (pushHistory s.rate.hist now))
    else s.rate.baseRate) = if s.rate.rateExplicit = false ∧ s.rate.baseRate = 0 then
      BitVec.ofNat 32 (historyRate (pushHistory s.rate.hist now)) else s.rate.baseRate
  by_cases hshort : (pushHistory s.rate.hist now).length < 8
  · rw [if_pos hshort, historyRate_of_short hshort]
    split
    · next hnone => exact hnone.2
    · rfl
  · rw [if_neg hshort]

theorem tracked_baseRate (s : State) :
    (tracked s).rate.baseRate =
      if s.rate.rateExplicit = true then s.rate.baseRate
      else if isGap s = true then 0
      else if s.rate.baseRate = 0 then BitVec.ofNat 32 (historyRate (tracked s).rate.hist) else s.rate.baseRate := by
  have htrack : (tracked s).rate.baseRate =
      if (noteArrival s).rate.rateExplicit = false ∧ (noteArrival s).rate.baseRate = 0 then
        BitVec.ofNat 32 (historyRate (tracked s).rate.hist)
      else (noteArrival s).rate.baseRate := trackArrival_baseRate s.cyc (ageEstimate (noteArrival s))
  rw [htrack]
  cases hgap : isGap s with
  | false =>
    rw [noteArrival_of_no_gap hgap]
    cases s.rate.rateExplicit <;> simp
  | true =>
    have hrate : historyRate (tracked s).rate.hist = 0 := by rw [tracked_hist_gap hgap]; rfl
    rw [noteArrival_of_gap hgap, hrate]
    cases hexplicit : s.rate.rateExplicit <;> simp [newTuneRate, hexplicit]

/-! ## What an adjustment leaves (R205, R206, R210, R211) -/

theorem applyTarget_rate (target : Nat) (s : State) :
    { (applyTarget target s).rate with correctedRate := s.rate.correctedRate } = s.rate := by
  unfold applyTarget
  split <;> rfl

theorem retarget_rate (calcRate : Nat) (s : State) :
    { (retarget calcRate s).rate with correctedRate := s.rate.correctedRate } = s.rate := by
  unfold retarget
  split
  · rfl
  · exact applyTarget_rate _ s

theorem adjustRate_rate (calcRate : Nat) (s : State) :
    { (adjustRate calcRate s).rate with correctedRate := s.rate.correctedRate } = s.rate := by
  unfold adjustRate
  split_ifs
  · exact retarget_rate calcRate (grow s)
  · rfl
  · exact retarget_rate calcRate s

/-- The adjustment may grow the ring, and keeps the read cursor and the drain's registers but the mask. -/
theorem adjustRate_ring_drain (calcRate : Nat) (s : State) :
    ((adjustRate calcRate s).ring = s.ring ∨
        s.ring.size < 16800 ∧ (adjustRate calcRate s).ring = s.ring.grown) ∧
      { (adjustRate calcRate s).drain with irqMask := s.drain.irqMask } = s.drain := by
  unfold adjustRate Config.ringMaxBytes
  split_ifs with hlow hroom
  · obtain ⟨hring, hdrain⟩ := retarget_ring_drain calcRate (grow s)
    rw [hring, hdrain]
    exact ⟨.inr ⟨hroom, rfl⟩, rfl⟩
  · exact ⟨.inl rfl, rfl⟩
  · obtain ⟨hring, hdrain⟩ := retarget_ring_drain calcRate s
    rw [hring, hdrain]
    exact ⟨.inl rfl, rfl⟩

theorem adjustRate_ring_read (calcRate : Nat) (s : State) : (adjustRate calcRate s).ring.read = s.ring.read := by
  obtain ⟨h | ⟨-, h⟩, -⟩ := adjustRate_ring_drain calcRate s <;> rw [h]
  exact Ring.grown_read _

theorem adjustRate_outside (calcRate : Nat) (s : State) :
    { adjustRate calcRate s with rate := s.rate, ring := s.ring, drain := s.drain } = s := by
  unfold adjustRate retarget applyTarget
  split_ifs <;> rfl

/-! ## `EV_FRAME(0)` whole (R200) -/

theorem isGap_iff (s : State) :
    isGap s = true ↔ s.rate.lastValid = true ∧ s.par.clkHz / 2 < (s.cyc - s.rate.lastArrival).toNat := by
  rw [isGap, Bool.and_eq_true, decide_eq_true_iff, gapTicks]

theorem shrinkToDefault_ring_read (s : State) : (shrinkToDefault s).ring.read = s.ring.read := by
  rw [shrinkToDefault_ring]
  split <;> rfl

theorem tracked_ring_read (s : State) : (tracked s).ring.read = s.ring.read := by
  rw [(tracked_ring_drain s).1]
  split
  · exact shrinkToDefault_ring_read s
  · rfl

theorem tracked_drain (s : State) : { (tracked s).drain with irqMask := s.drain.irqMask } = s.drain := by
  rw [(tracked_ring_drain s).2]
  split
  · rw [(shrinkToDefault_outside_ring s).1]
  · rfl

/-- The history and the age after the lazy initialisation are those before it. -/
theorem ensureActive_rate (s : State) :
    { (ensureActive s).rate with correctedRate := s.rate.correctedRate } = s.rate := by
  unfold ensureActive
  split <;> rfl

theorem exec_evFrame_zero {s : State} (h : primaryFree s = true) :
    exec (.evFrame 0) s = .next (newFrame (ensureActive s)) :=
  Order.exec_of_free (i := .evFrame 0) (.inr rfl) h

/-- Settles O30: `m` is the initialised state with the arrival tracked, register by register; the rest is what the
adjustment leaves. -/
theorem chipZeroFrameTracksArrival : Obligations.ChipZeroFrameTracksArrival := by
  intro s hfree hinv
  refine ⟨tracked (ensureActive s), newFrame (ensureActive s), exec_evFrame_zero hfree, rfl, ?_⟩
  have hrate := ensureActive_rate s
  have hage : (ensureActive s).rate.multiAge ≤ 30 := (congrArg Rate.multiAge hrate).trans_le hinv.rate.age_le
  have hhist : (ensureActive s).rate.hist.length ≤ 8 :=
    (congrArg (fun q : Rate => q.hist.length) hrate).trans_le hinv.rate.hist_le
  have hcyc : (ensureActive s).cyc = s.cyc := by simp
  have hpar : (ensureActive s).par = s.par := by simp
  generalize ensureActive s = b at *
  intro _ gap
  have hgap : isGap b = true ↔ gap := by rw [isGap_iff, hcyc, hpar]
  obtain ⟨hlast, hvalid, hexplicit, hcorrected, hage', hchips'⟩ := tracked_rate_kept b
  obtain ⟨hring, hdrain⟩ := tracked_ring_drain b
  refine ⟨hlast.trans hcyc, hvalid, hage'.trans (ageEstimate_multiAge hage), hchips'.trans (ageEstimate_chipsEst hage),
    fun h => ?gapHist, fun h => ?hist, hexplicit, ?baseRate, hcorrected, hring.trans (if_congr hgap rfl rfl),
    hdrain.trans (if_congr hgap rfl rfl), tracked_frame b, adjustRate_rate _ _,
    (adjustRate_ring_read _ _).trans (tracked_ring_read b), ?drain, ?frame⟩
  case gapHist => rw [tracked_hist_gap (hgap.2 h), hcyc]
  case hist => rw [tracked_hist_no_gap (Bool.eq_false_iff.2 fun hb => h (hgap.1 hb)) hhist, hcyc]
  case baseRate =>
    refine (tracked_baseRate b).trans (if_congr Iff.rfl rfl ?_)
    exact if_congr hgap rfl rfl
  case drain =>
    exact (congrArg (fun d : Drain => { d with irqMask := b.drain.irqMask }) (adjustRate_ring_drain _ _).2).trans
      (tracked_drain b)
  case frame =>
    exact (congrArg (fun u : State => { u with rate := b.rate, ring := b.ring, drain := b.drain })
      (adjustRate_outside _ _)).trans (tracked_frame b)

end Sys2Proof.Proofs.Arrivals
end

-- ==== The invariant (10_state.md R39) ====
section
namespace Sys2Proof.Proofs.Invariants

open Sys2Proof Sys2Proof.Machine Sys2Proof.Proofs.BusOperations Sys2Proof.Proofs.RingQueue Sys2Proof.Proofs.Arrivals
  Sys2Proof.Proofs.Order

/-- Settles O55: the memories are empty, and every other clause is about the reset values. -/
theorem resetSatisfiesInvariant : Obligations.ResetSatisfiesInvariant where
  par_ok := rfl
  shadow_wf := rfl
  ring := by constructor <;> decide
  seq := ⟨fun _ => rfl, nofun, nofun, nofun, nofun, nofun⟩
  rate := by constructor <;> decide
  drain := by constructor <;> decide

theorem tXfer_pos {s : State} (h : Inv s) : 1 ≤ s.par.tXfer := by
  have hok := h.par_ok
  simp only [Config.Params.ok, Bool.and_eq_true, decide_eq_true_eq] at hok
  obtain ⟨⟨⟨hxfer, -⟩, -⟩, -⟩ := hok
  exact hxfer

theorem rateDefault_pos {s : State} (h : Inv s) : 1 ≤ s.par.rateDefault.toNat := by
  have hok := h.par_ok
  simp only [Config.Params.ok, Bool.and_eq_true, decide_eq_true_eq] at hok
  obtain ⟨⟨⟨-, hrate⟩, -⟩, -⟩ := hok
  exact hrate

/-! ## What each part of the invariant depends on -/

/-- The sequencer's part depends on its registers, the pins, the waiting flag and the length of a transfer. -/
theorem seqInv_of_eq {s t : State} (h : SeqInv s) (hseq : t.seq = s.seq) (hpins : t.pins = s.pins)
    (hvalid : t.req.valid = s.req.valid) (hxfer : t.par.tXfer = s.par.tXfer) : SeqInv t where
  idle_pins := by rw [hseq, hpins]; exact h.idle_pins
  delay_pins := by rw [hseq, hpins]; exact h.delay_pins
  xfer_pins := by rw [hseq, hpins]; exact h.xfer_pins
  delay_pending := by rw [hseq]; exact h.delay_pending
  xfer_pending := by rw [hseq, hxfer]; exact h.xfer_pending
  waits_busy := by rw [hseq, hvalid]; exact h.waits_busy

/-- The drain's part depends on its registers, of which the mask takes no part, and on the rate being a tick or more. -/
theorem drainInv_of_rate {s t : State} (h : DrainInv s) (hdrain : { t.drain with irqMask := s.drain.irqMask } = s.drain)
    (hrate : s.drain.active = true → Config.rateMin ≤ t.rate.correctedRate.toNat) : DrainInv t := by
  have hmask : t.drain = { s.drain with irqMask := t.drain.irqMask } := by rw [← hdrain]
  constructor <;> rw [hmask]
  · exact h.idle_le
  · exact h.inactive_quiet
  · exact h.service_active
  · exact hrate
  · exact h.count_lt
  · exact h.left_le
  · exact h.no_service

theorem drainInv_of_eq {s t : State} (h : DrainInv s) (hdrain : t.drain = s.drain)
    (hrate : t.rate.correctedRate = s.rate.correctedRate) : DrainInv t :=
  drainInv_of_rate h (by rw [hdrain]) (by rw [hrate]; exact h.rate_pos)

/-- A change of items the invariant does not speak of. -/
theorem inv_of_eq {s t : State} (h : Inv s) (hpar : t.par = s.par) (hshadow : t.shadow = s.shadow)
    (hring : t.ring = s.ring) (hseq : t.seq = s.seq) (hpins : t.pins = s.pins)
    (hvalid : t.req.valid = s.req.valid) (hrate : t.rate = s.rate) (hdrain : t.drain = s.drain) : Inv t where
  par_ok := hpar ▸ h.par_ok
  shadow_wf := hshadow ▸ h.shadow_wf
  ring := hring ▸ h.ring
  seq := seqInv_of_eq h.seq hseq hpins hvalid (congrArg _ hpar)
  rate := hrate ▸ h.rate
  drain := drainInv_of_eq h.drain hdrain (congrArg _ hrate)

/-- A change of the sequencer, its pins and the shadow. -/
theorem inv_of_sequencer {s t : State} (h : Inv s) (hpar : t.par = s.par) (hring : t.ring = s.ring)
    (hrate : t.rate = s.rate) (hdrain : t.drain = s.drain) (hshadow : shadowWf t.shadow = true) (hseq : SeqInv t) :
    Inv t where
  par_ok := hpar ▸ h.par_ok
  shadow_wf := hshadow
  ring := hring ▸ h.ring
  seq := hseq
  rate := hrate ▸ h.rate
  drain := drainInv_of_eq h.drain hdrain (congrArg _ hrate)

/-- A change of the ring, the rate registers and the drain. -/
theorem inv_of_asid {s t : State} (h : Inv s)
    (hsame : t.par = s.par ∧ t.shadow = s.shadow ∧ t.seq = s.seq ∧ t.pins = s.pins ∧ t.req = s.req)
    (hring : RingInv t.ring) (hrate : RateInv t.rate) (hdrain : DrainInv t) : Inv t := by
  obtain ⟨hpar, hshadow, hseq, hpins, hreq⟩ := hsame
  exact ⟨hpar ▸ h.par_ok, hshadow ▸ h.shadow_wf, hring,
    seqInv_of_eq h.seq hseq hpins (congrArg _ hreq) (congrArg _ hpar), hrate, hdrain⟩

/-! ## The sequencer (R127 to R129, R133) -/

theorem seqInv_of_ready {s : State} (h : Ready s) : SeqInv s where
  idle_pins _ := h.idle_pins
  delay_pins hdelay := by rw [h.idle] at hdelay; cases hdelay
  xfer_pins hxfer := by rw [h.idle] at hxfer; cases hxfer
  delay_pending hdelay := by rw [h.idle] at hdelay; cases hdelay
  xfer_pending hxfer := by rw [h.idle] at hxfer; cases hxfer
  waits_busy hvalid := by rw [h.no_request] at hvalid; cases hvalid

/-- A transfer that begins holds the pins of its latches for the whole of its length. -/
theorem seqInv_enterXfer {s : State} (hxfer : 1 ≤ s.par.tXfer) : SeqInv (enterXfer s) where
  idle_pins := nofun
  delay_pins := nofun
  xfer_pins _ := rfl
  delay_pending := nofun
  xfer_pending _ := ⟨hxfer, le_rfl⟩
  waits_busy _ := nofun

theorem seqInv_delay {s : State} (hphase : s.seq.phase = .delay) (hpins : s.pins = Pins.idle) (hdly : s.seq.dly ≠ 0) :
    SeqInv s where
  idle_pins hidle := by rw [hphase] at hidle; cases hidle
  delay_pins _ := hpins
  xfer_pins hxfer := by rw [hphase] at hxfer; cases hxfer
  delay_pending _ := hdly
  xfer_pending hxfer := by rw [hphase] at hxfer; cases hxfer
  waits_busy _ := by rw [hphase]; nofun

theorem seqInv_startTransfer {s : State} (h : Ready s) (n : Cycles) : SeqInv (startTransfer n s) := by
  by_cases hn : n = 0
  · rw [hn, startTransfer_zero]
    exact seqInv_enterXfer h.xfer_pos
  · rw [startTransfer_delay hn]
    exact seqInv_delay rfl h.idle_pins hn

theorem seqInv_acceptWrite {s : State} (h : Ready s) (n : Cycles) : SeqInv (acceptWrite n s) := by
  cases hres : resolve s.rt s.req.addr with
  | skip => rw [acceptWrite_skip n hres]; exact seqInv_of_ready h
  | active => rw [acceptWrite_active n hres]; exact seqInv_startTransfer (ready_latchWrite h) n

theorem seqInv_acceptRead {s : State} (h : Ready s) : SeqInv (acceptRead s) := by
  cases hres : resolve s.rt s.req.addr with
  | skip => rw [acceptRead_skip hres]; exact seqInv_of_eq (seqInv_of_ready h) rfl rfl rfl rfl
  | active => rw [acceptRead_active hres]; exact seqInv_startTransfer (ready_latchRead h) _

theorem seqInv_acceptDelay {s : State} (h : Ready s) : SeqInv (acceptDelay s) := by
  by_cases hzero : s.req.cycles = 0
  · rw [acceptDelay_zero hzero]; exact seqInv_of_ready h
  · rw [acceptDelay_waits hzero]; exact seqInv_delay rfl h.idle_pins hzero

/-- `s` with its waiting request taken off the port. -/
def unloaded (s : State) : State :=
  { s with req := { s.req with valid := false }, resultValid := false, seq := { s.seq with op := s.req.op } }

/-- `Accept` by operation (R127). -/
theorem accept_eq (s : State) :
    accept s =
      match s.req.op with
      | .write => acceptWrite 0 (unloaded s)
      | .cycledWrite => acceptWrite s.req.cycles (unloaded s)
      | .cycledRead => acceptRead (unloaded s)
      | .cycledDelay => acceptDelay (unloaded s) := rfl

theorem seqInv_accept {s : State} (hidle : s.seq.phase = .idle) (hpins : s.pins = Pins.idle)
    (hxfer : 1 ≤ s.par.tXfer) : SeqInv (accept s) := by
  have hready : Ready (unloaded s) := ⟨rfl, hidle, hpins, hxfer⟩
  rw [accept_eq]
  split
  · exact seqInv_acceptWrite hready 0
  · exact seqInv_acceptWrite hready s.req.cycles
  · exact seqInv_acceptRead hready
  · exact seqInv_acceptDelay hready

theorem shadowWf_acceptWrite {s : State} (h : shadowWf s.shadow = true) (n : Cycles) :
    shadowWf (acceptWrite n s).shadow = true := by
  cases hres : resolve s.rt s.req.addr with
  | skip => rw [acceptWrite_skip n hres]; exact h
  | active cs a sidx =>
    rw [acceptWrite_active n hres]
    simpa [latchWrite] using shadowWf_store h sidx s.req.data

theorem shadowWf_accept {s : State} (h : shadowWf s.shadow = true) : shadowWf (accept s).shadow = true := by
  rw [accept_eq]
  split
  · exact shadowWf_acceptWrite (s := unloaded s) h 0
  · exact shadowWf_acceptWrite (s := unloaded s) h s.req.cycles
  · simpa [unloaded] using h
  · simpa [unloaded] using h

/-- An operation in flight either ends, with idle pins, or goes on as the invariant says. -/
theorem advanceSeq_ends_or_continues {s : State} (h : SeqInv s) (hxfer : 1 ≤ s.par.tXfer) :
    ((advanceSeq s).seq.phase = .idle ∧ (advanceSeq s).pins = Pins.idle) ∨
      (advanceSeq s).seq.phase ≠ .idle ∧ SeqInv (advanceSeq s) := by
  cases hphase : s.seq.phase with
  | idle =>
    rw [advanceSeq_idle hphase]
    exact .inl ⟨hphase, h.idle_pins hphase⟩
  | delay =>
    by_cases hlast : s.seq.dly - 1 = 0
    · rw [advanceSeq_delay_last hphase hlast]
      split
      · exact .inl ⟨rfl, h.delay_pins hphase⟩
      · exact .inr ⟨nofun, seqInv_enterXfer (s := { s with seq := { s.seq with dly := s.seq.dly - 1 } }) hxfer⟩
    · rw [advanceSeq_delay hphase hlast]
      refine .inr ⟨?_, seqInv_delay hphase (h.delay_pins hphase) hlast⟩
      show s.seq.phase ≠ .idle
      rw [hphase]
      nofun
  | xfer =>
    obtain ⟨-, hle⟩ := h.xfer_pending hphase
    by_cases hlast : s.seq.xcnt - 1 = 0
    · rw [advanceSeq_xfer_last hphase hlast]
      exact .inl ⟨by rw [endXfer_seq], endXfer_pins _⟩
    · rw [advanceSeq_xfer hphase hlast]
      have hbusy : s.seq.phase ≠ .idle := by rw [hphase]; nofun
      exact .inr ⟨hbusy,
        { idle_pins := fun hidle => absurd hidle hbusy
          delay_pins := h.delay_pins
          xfer_pins := h.xfer_pins
          delay_pending := h.delay_pending
          xfer_pending := fun _ => ⟨Nat.one_le_iff_ne_zero.2 hlast, (Nat.sub_le _ _).trans hle⟩
          waits_busy := fun _ => hbusy }⟩

theorem shadowWf_endXfer {s : State} (h : shadowWf s.shadow = true) : shadowWf (endXfer s).shadow = true := by
  cases hrw : s.seq.rw
  · rw [Flight.endXfer_write hrw]; exact h
  · rw [Flight.endXfer_read hrw rfl]; exact shadowWf_store h _ _

theorem shadowWf_advanceSeq {s : State} (h : shadowWf s.shadow = true) : shadowWf (advanceSeq s).shadow = true := by
  unfold advanceSeq
  split
  · exact h
  · dsimp only
    split_ifs <;> exact h
  · dsimp only
    split
    · exact shadowWf_endXfer (s := { s with seq := { s.seq with xcnt := s.seq.xcnt - 1 } }) h
    · exact h

theorem seqInv_seqTick {s : State} (h : SeqInv s) (hxfer : 1 ≤ s.par.tXfer) : SeqInv (seqTick s) := by
  have hxfer' : 1 ≤ (advanceSeq s).par.tXfer := by simpa using hxfer
  obtain ⟨hidle, hpins⟩ | ⟨hbusy, hgoes⟩ := advanceSeq_ends_or_continues h hxfer
  case inr => rwa [seqTick_of_busy hbusy]
  unfold seqTick
  dsimp only
  split
  · exact seqInv_accept hidle hpins hxfer'
  · next hnone =>
    have hvalid : (advanceSeq s).req.valid = false := Bool.eq_false_iff.2 fun hvalid => hnone ⟨hidle, hvalid⟩
    exact seqInv_of_ready ⟨hvalid, hidle, hpins, hxfer'⟩

theorem inv_seqTick {s : State} (h : Inv s) : Inv (seqTick s) := by
  refine inv_of_sequencer h (by simp) (by simp) (by simp) (by simp) ?_ (seqInv_seqTick h.seq (tXfer_pos h))
  unfold seqTick
  dsimp only
  split
  · exact shadowWf_accept (shadowWf_advanceSeq h.shadow_wf)
  · exact shadowWf_advanceSeq h.shadow_wf

/-- An idle sequencer accepts what is presented, and a busy one lets it wait. -/
theorem inv_present {s : State} (h : Inv s) (r : BusRequest) : Inv (present r s) := by
  have hseq : SeqInv (present r s) := by
    by_cases hidle : s.seq.phase = .idle
    · rw [present_of_idle r hidle]
      exact seqInv_accept (by simpa using hidle) (by simpa using h.seq.idle_pins hidle) (by simpa using tXfer_pos h)
    · rw [present_of_busy r hidle]
      have hkeep : SeqInv { writeRequest r s with req := s.req } :=
        seqInv_of_eq h.seq (by simp) (by simp) rfl (by simp)
      exact ⟨hkeep.idle_pins, hkeep.delay_pins, hkeep.xfer_pins, hkeep.delay_pending, hkeep.xfer_pending,
        fun _ => by simpa using hidle⟩
  refine inv_of_sequencer h (by simp) (by simp) (by simp) (by simp) ?_ hseq
  unfold present
  dsimp only
  split
  · exact shadowWf_accept (by simpa using h.shadow_wf)
  · simpa using h.shadow_wf

theorem inv_issueNext {s : State} (h : Inv s) : Inv (issueNext s) := by
  unfold issueNext
  split
  · exact h
  · refine inv_present ?_ _
    exact inv_of_eq h rfl rfl rfl rfl rfl rfl rfl rfl

theorem inv_startBurst {s : State} (h : Inv s) (ops : List BusRequest) : Inv (startBurst ops s) := by
  refine inv_issueNext ?_
  exact inv_of_eq h rfl rfl rfl rfl rfl rfl rfl rfl

/-! ## The tick boundary (R177, R234) -/

theorem drainInv_timerTick {s : State} (h : DrainInv s) : DrainInv (timerTick s) := by
  cases hactive : s.drain.active with
  | false => rwa [timerTick_inactive hactive]
  | true =>
    have hrate := h.rate_pos hactive
    by_cases hfire : s.drain.irqPeriod.toNat ≤ s.drain.irqCnt.toNat + 1
    · rw [timerTick_fire hactive hfire]
      exact ⟨h.idle_le, fun hoff => absurd (hactive.symm.trans hoff) nofun, h.service_active, fun _ => hrate,
        fun _ => hrate, h.left_le, h.no_service⟩
    · rw [timerTick_count hactive (Nat.not_le.1 hfire)]
      refine ⟨h.idle_le, h.inactive_quiet, h.service_active, fun _ => hrate, fun _ => ?_, h.left_le, h.no_service⟩
      have hwidth := s.drain.irqPeriod.isLt
      show (s.drain.irqCnt + 1).toNat < s.drain.irqPeriod.toNat
      rw [BitVec.toNat_add]
      exact (Nat.mod_le _ _).trans_lt (Nat.not_le.1 hfire)

theorem inv_boundary {s : State} (h : Inv s) : Inv (boundary s) := by
  have hcount : Inv (countTick s) := inv_of_eq h rfl rfl rfl rfl rfl rfl rfl rfl
  refine inv_seqTick (inv_of_asid hcount (by simp) ?_ ?_ (drainInv_timerTick hcount.drain))
  · simpa using h.ring
  · simpa using h.rate

/-! ## The drain service (R176, R178, R179) -/

theorem inv_endService {s : State} (h : Inv s) (hservice : s.drain.inService = true) : Inv (endService s) := by
  have hd := h.drain
  have hactive := hd.service_active hservice
  obtain hidle | hdone := Nat.eq_zero_or_pos s.drain.delivered
  case inr =>
    rw [endService_delivered hdone]
    exact inv_of_asid h ⟨rfl, rfl, rfl, rfl, rfl⟩ h.ring h.rate
      ⟨Nat.zero_le _, hd.inactive_quiet, nofun, hd.rate_pos, hd.count_lt, Nat.zero_le _, fun _ => ⟨rfl, rfl⟩⟩
  obtain hwithin | hpast := Nat.lt_or_ge s.drain.idleCount Config.idleLimit
  · rw [endService_idle hidle hwithin]
    exact inv_of_asid h ⟨rfl, rfl, rfl, rfl, rfl⟩ h.ring h.rate
      ⟨Nat.succ_le_succ hwithin.le, hd.inactive_quiet, nofun, hd.rate_pos, hd.count_lt, Nat.zero_le _,
        fun _ => ⟨rfl, rfl⟩⟩
  · rw [endService_teardown hidle hpast]
    exact inv_of_asid h ⟨rfl, rfl, rfl, rfl, rfl⟩ (ringInv_discard _) h.rate
      ⟨Nat.zero_le _, fun _ => rfl, nofun, nofun, nofun, Nat.zero_le _, fun _ => ⟨rfl, rfl⟩⟩

/-- `s` in a service that has taken the firing and may take `left` entries (R176, R178). -/
def serviceBegun (left : Nat) (s : State) : State :=
  { s with drain := { s.drain with irqPending := false, inService := true, left := left, delivered := 0 } }

theorem startService_of_little {s : State} (h : s.ring.fill ≤ 112) :
    startService s = endService (serviceBegun 0 s) :=
  startService_idle h

theorem startService_of_frame {s : State} (h : 112 < s.ring.fill) : startService s = serviceBegun 28 s :=
  startService_drains h

/-- A service begins on an active subsystem with at most one frame to take. -/
theorem inv_serviceBegun {s : State} (h : Inv s) (hopen : gateOpen s = true) {left : Nat} (hleft : left ≤ 28) :
    Inv (serviceBegun left s) := by
  obtain ⟨-, hactive, -⟩ := (gateOpen_iff s).1 hopen
  exact inv_of_asid h ⟨rfl, rfl, rfl, rfl, rfl⟩ h.ring h.rate
    ⟨h.drain.idle_le, fun _ => rfl, fun _ => hactive, h.drain.rate_pos, h.drain.count_lt, hleft, nofun⟩

theorem inv_startService {s : State} (h : Inv s) (hopen : gateOpen s = true) : Inv (startService s) := by
  obtain hframe | hlittle := Nat.lt_or_ge 112 s.ring.fill
  · rw [startService_of_frame hframe]
    exact inv_serviceBegun h hopen le_rfl
  · rw [startService_of_little hlittle]
    exact inv_endService (inv_serviceBegun h hopen (Nat.zero_le _)) rfl

/-- The state of a service with its oldest entry taken and counted, before the entry's request (R176). -/
def entryTaken (s : State) : State :=
  { s with
    ring := popped s.ring
    drain := { s.drain with left := s.drain.left - 1, delivered := s.drain.delivered + 1 } }

theorem deliverEntry_eq (register value : Byte) (delay : Cycles) (s : State) :
    deliverEntry register value delay s = present (.cycledWrite register value delay) (entryTaken s) := rfl

theorem inv_entryTaken {s : State} (h : Inv s) (hready : entryReady s = true) : Inv (entryTaken s) := by
  obtain ⟨hservice, -, -, hleft, -⟩ := (entryReady_iff s).1 hready
  have hd := h.drain
  refine inv_of_asid h ⟨rfl, rfl, rfl, rfl, rfl⟩ (ringInv_popped h.ring) h.rate
    ⟨hd.idle_le, hd.inactive_quiet, hd.service_active, hd.rate_pos, hd.count_lt, ?_,
      fun hnone => absurd (hservice.symm.trans hnone) nofun⟩
  have hle := hd.left_le
  show s.drain.left - 1 + (s.drain.delivered + 1) ≤ Config.frameEntries
  omega

theorem inv_deliverEntry {s : State} (h : Inv s) (hready : entryReady s = true) (register value : Byte)
    (delay : Cycles) : Inv (deliverEntry register value delay s) :=
  inv_present (inv_entryTaken h hready) _

/-! ## The events (42_asid_ring.md, 43_asid_rate.md) -/

theorem initialRate_pos {s : State} (h : Inv s) : 1 ≤ (initialRate s).toNat := by
  unfold initialRate
  split
  · have hwidth := s.rate.baseRate.isLt
    rw [BitVec.toNat_ofNat, Config.rateMin, Nat.mod_eq_of_lt (by omega)]
    exact Nat.le_max_right _ _
  · exact rateDefault_pos h

theorem inv_asidInit {s : State} (h : Inv s) : Inv (asidInit s) := by
  have hrate := initialRate_pos h
  have hd := h.drain
  exact inv_of_asid h ⟨rfl, rfl, rfl, rfl, rfl⟩ (ringInv_discard _) ⟨h.rate.chips_pos, h.rate.chips_le, h.rate.age_le,
      h.rate.hist_le⟩
    ⟨Nat.zero_le _, nofun, fun _ => rfl, fun _ => hrate, fun _ => hrate, hd.left_le, hd.no_service⟩

theorem inv_ensureActive {s : State} (h : Inv s) : Inv (ensureActive s) := by
  cases hactive : s.drain.active
  · rw [ensureActive_of_inactive hactive]; exact inv_asidInit h
  · rwa [ensureActive_of_active hactive]

theorem inv_pushEntry {s : State} (h : Inv s) (register value : Byte) (delay : Cycles) :
    Inv (pushEntry register value delay s) := by
  by_cases hfull : s.ring.next s.ring.write = s.ring.read
  · rw [pushEntry_full hfull]; exact inv_of_eq h rfl rfl rfl rfl rfl rfl rfl rfl
  · rw [pushEntry_store hfull]
    exact inv_of_asid h ⟨rfl, rfl, rfl, rfl, rfl⟩ (ringInv_pushed h.ring) h.rate (drainInv_of_eq h.drain rfl rfl)

theorem inv_newTune {s : State} (h : Inv s) : Inv (newTune s) := by
  obtain ⟨hdrain, -⟩ := shrinkToDefault_outside_ring s
  rw [newTune_eq]
  refine inv_of_asid h ⟨rfl, rfl, rfl, rfl, rfl⟩ ?_
    ⟨h.rate.chips_pos, h.rate.chips_le, h.rate.age_le, Nat.zero_le _⟩ (drainInv_of_rate h.drain ?_ h.drain.rate_pos)
  · show RingInv (shrinkToDefault s).ring
    rw [shrinkToDefault_ring_eq h.ring]
    exact ringInv_shrunk h.ring
  · show { (shrinkToDefault s).drain with irqMask := s.drain.irqMask } = s.drain
    rw [hdrain]

theorem inv_noteArrival {s : State} (h : Inv s) : Inv (noteArrival s) := by
  have hnoted {t : State} (ht : Inv t) :
      Inv { t with rate := { t.rate with lastArrival := t.cyc, lastValid := true } } :=
    inv_of_asid ht ⟨rfl, rfl, rfl, rfl, rfl⟩ ht.ring
      ⟨ht.rate.chips_pos, ht.rate.chips_le, ht.rate.age_le, ht.rate.hist_le⟩ (drainInv_of_eq ht.drain rfl rfl)
  unfold noteArrival
  split
  · exact hnoted (inv_newTune h)
  · exact hnoted h

theorem inv_ageEstimate {s : State} (h : Inv s) : Inv (ageEstimate s) := by
  have hpos := h.rate.chips_pos
  have hle := h.rate.chips_le
  have hage := ageEstimate_multiAge h.rate.age_le
  have hchips := ageEstimate_chipsEst h.rate.age_le
  refine inv_of_asid h (by simp) (by simpa using h.ring) ⟨?_, ?_, ?_, h.rate.hist_le⟩ (drainInv_of_eq h.drain rfl rfl)
  · rw [hchips]; split <;> omega
  · rw [hchips]; unfold Config.maxChips at *; split <;> omega
  · rw [hage]; exact Nat.min_le_right _ _

theorem inv_trackArrival {s : State} (h : Inv s) (now : Ticks) : Inv (trackArrival now s).1 := by
  refine inv_of_asid h ⟨rfl, rfl, rfl, rfl, rfl⟩ h.ring ⟨h.rate.chips_pos, h.rate.chips_le, h.rate.age_le, ?_⟩
    (drainInv_of_eq h.drain rfl rfl)
  exact (pushHistory_length h.rate.hist_le now).trans_le (Nat.min_le_right _ _)

theorem inv_tracked {s : State} (h : Inv s) : Inv (tracked s) :=
  inv_trackArrival (inv_ageEstimate (inv_noteArrival h)) s.cyc

theorem applyTarget_pos {target : Nat} (hpos : 1 ≤ target) (hwidth : target < 2 ^ 32) {s : State}
    (h : 1 ≤ s.rate.correctedRate.toNat) : 1 ≤ (applyTarget target s).rate.correctedRate.toNat := by
  unfold applyTarget
  split
  · exact hpos.trans_eq ((BitVec.toNat_ofNat target 32).trans (Nat.mod_eq_of_lt hwidth)).symm
  · exact h

theorem retarget_pos {calcRate : Nat} (hcalc : calcRate ≤ (2 ^ 32 - 1) / 7) {s : State}
    (h : 1 ≤ s.rate.correctedRate.toNat) : 1 ≤ (retarget calcRate s).rate.correctedRate.toNat := by
  unfold retarget
  split
  · exact h
  · exact applyTarget_pos (clampTarget_pos _ _) (targetRate_lt hcalc s) h

/-- No adjustment to an average of the history makes the rate 0. -/
theorem adjustRate_pos {calcRate : Nat} (hcalc : calcRate ≤ (2 ^ 32 - 1) / 7) {s : State}
    (h : 1 ≤ s.rate.correctedRate.toNat) : 1 ≤ (adjustRate calcRate s).rate.correctedRate.toNat := by
  unfold adjustRate
  split_ifs
  · exact retarget_pos hcalc (s := grow s) (by simpa using h)
  · rw [emergency_rate]; exact Nat.le_max_right _ _
  · exact retarget_pos hcalc h

theorem inv_adjustRate {s : State} (h : Inv s) {calcRate : Nat} (hcalc : calcRate ≤ (2 ^ 32 - 1) / 7) :
    Inv (adjustRate calcRate s) := by
  obtain ⟨hring, hdrain⟩ := adjustRate_ring_drain calcRate s
  have hrate : (adjustRate calcRate s).rate =
      { s.rate with correctedRate := (adjustRate calcRate s).rate.correctedRate } := by
    conv_rhs => rw [← adjustRate_rate calcRate s]
  refine inv_of_asid h (by simp) ?_ ?_
    (drainInv_of_rate h.drain hdrain fun hactive => adjustRate_pos hcalc (h.drain.rate_pos hactive))
  · obtain hsame | ⟨hroom, hgrown⟩ := hring
    · rw [hsame]; exact h.ring
    · rw [hgrown]; exact ringInv_grown h.ring hroom
  · rw [hrate]
    exact ⟨h.rate.chips_pos, h.rate.chips_le, h.rate.age_le, h.rate.hist_le⟩

theorem inv_noteChip {s : State} (h : Inv s) (k : BitVec 2) : Inv (noteChip k s) := by
  have hk := k.isLt
  have hle := h.rate.chips_le
  refine inv_of_asid h (by simp) h.ring ⟨?_, ?_, Nat.zero_le _, h.rate.hist_le⟩ (drainInv_of_eq h.drain rfl rfl)
  · exact h.rate.chips_pos.trans (Nat.le_max_left _ _)
  · show max s.rate.chipsEst (k.toNat + 1) ≤ 4
    unfold Config.maxChips at hle
    omega

theorem inv_takeFrame {s : State} (h : Inv s) (k : BitVec 2) : Inv (takeFrame k s) := by
  have hactive := inv_ensureActive h
  unfold takeFrame
  split
  · rw [newFrame_eq]
    exact inv_adjustRate (inv_tracked hactive) (historyRate_le _)
  · exact inv_noteChip hactive k

theorem inv_setBaseRate {s : State} (h : Inv s) (r : Ticks) : Inv (setBaseRate r s) := by
  rw [BaseRate.setBaseRate_eq]
  exact inv_of_asid h ⟨rfl, rfl, rfl, rfl, rfl⟩ h.ring
    ⟨h.rate.chips_pos, h.rate.chips_le, h.rate.age_le, h.rate.hist_le⟩ (drainInv_of_eq h.drain rfl rfl)

/-! ## Reset (R260), and every instruction -/

theorem inv_powerOnReset {s : State} (h : Inv s) : Inv (powerOnReset s) where
  par_ok := h.par_ok
  shadow_wf := rfl
  ring := ringInv_discard _
  seq := ⟨fun _ => rfl, nofun, nofun, nofun, nofun, nofun⟩
  rate := ⟨le_rfl, show 1 ≤ 4 by decide, le_rfl, Nat.zero_le _⟩
  drain := ⟨Nat.zero_le _, fun _ => rfl, nofun, nofun, nofun, Nat.zero_le _, fun _ => ⟨rfl, rfl⟩⟩

theorem inv_forwardConfig {s : State} (h : Inv s) (sub : List Byte) : Inv (forwardConfig sub s) := by
  unfold forwardConfig
  split
  · exact h
  · exact inv_of_eq h rfl rfl rfl rfl rfl rfl rfl rfl

theorem inv_startRead {s : State} (h : Inv s) (address : Option Byte) : Inv (startRead address s) := by
  cases address with
  | none => exact h
  | some a =>
    exact inv_startBurst (s := { s with prim := { s.prim with replyDue := true } })
      (inv_of_eq h rfl rfl rfl rfl rfl rfl rfl rfl) _

/-- Every command and every event keeps the invariant. -/
theorem inv_effectOf {s : State} (h : Inv s) (i : Instr) : Inv (effectOf i s) := by
  cases i with
  | cmdWrite | cmdCycledWrite => exact inv_startBurst h _
  | cmdRead address => exact inv_startRead h address
  | cmdPause | cmdUnpause | cmdDisableSid | cmdEnableSid | cmdClearBus | cmdBootloader | cmdMute | cmdUnmute
    | cmdResetSid => exact inv_of_eq h rfl rfl rfl rfl rfl rfl rfl rfl
  | cmdConfig | cfgReadConfig | cfgRunAutoDetect | cfgPlayer => exact inv_forwardConfig h _
  | cmdUnassigned sub =>
    unfold effectOf
    dsimp only
    split
    · exact inv_of_eq h rfl rfl rfl rfl rfl rfl rfl rfl
    · exact h
  | cmdResetMcu => exact inv_powerOnReset h
  | evPlayStart => exact inv_newTune h
  | evSetBaseRate r => exact inv_setBaseRate h r
  | evFrame k => exact inv_takeFrame h k
  | evPush register value delay => exact inv_pushEntry (inv_ensureActive h) register value delay
  | evPlayStop | busWrite | busCycledWrite | busCycledRead | busCycledDelay | evTimer | ringEntry => exact h

theorem inv_answered {i : Instr} {s t : State} (h : Inv s) (hanswered : Answered i s t) : Inv t := by
  cases hanswered with
  | effect => exact inv_effectOf h i
  | held => exact inv_of_eq h rfl rfl rfl rfl rfl rfl rfl rfl
  | presented r => exact inv_present h r
  | served hopen => exact inv_startService h hopen
  | delivered register value delay hready => exact inv_deliverEntry h hready register value delay
  | ignored => exact h

/-! ## Every step -/

theorem inv_env_apply {s : State} (h : Inv s) (a : EnvAction) : Inv (a.apply s) := by
  cases a with
  | swap rt =>
    exact inv_of_asid h ⟨rfl, rfl, rfl, rfl, rfl⟩ h.ring h.rate (drainInv_of_rate h.drain rfl h.drain.rate_pos)
  | enterSwap wait rt =>
    exact inv_of_asid h ⟨rfl, rfl, rfl, rfl, rfl⟩ h.ring h.rate (drainInv_of_rate h.drain rfl h.drain.rate_pos)
  | setClock hz =>
    exact ⟨h.par_ok, h.shadow_wf, h.ring, seqInv_of_eq h.seq rfl rfl rfl rfl, h.rate, drainInv_of_eq h.drain rfl rfl⟩
  | pulseReset => exact inv_of_eq h rfl rfl rfl rfl rfl rfl rfl rfl
  | powerOn => exact inv_powerOnReset h

/-- Settles O56: agent by agent, each of whose moves keeps the invariant. -/
theorem stepKeepsInvariant : Obligations.StepKeepsInvariant := by
  intro s t h hstep
  cases step_moved hstep with
  | served hopen => exact inv_startService h hopen
  | environment =>
    refine inv_env_apply ?_ _
    exact inv_of_eq h rfl rfl rfl rfl rfl rfl rfl rfl
  | ticked => exact inv_boundary h
  | delivered register value delay hready =>
    exact inv_deliverEntry (s := { s with pace := { s.pace with handler := s.pace.handler.tail } })
      (inv_of_eq h rfl rfl rfl rfl rfl rfl rfl rfl) hready register value delay
  | serviceEnded hservice => exact inv_endService h hservice
  | issued => exact inv_issueNext (inv_of_eq h rfl rfl rfl rfl rfl rfl rfl rfl)
  | replied | ignoredInput => exact inv_of_eq h rfl rfl rfl rfl rfl rfl rfl rfl
  | tookInput _ _ _ hanswered =>
    refine inv_answered ?_ hanswered
    exact inv_of_eq h rfl rfl rfl rfl rfl rfl rfl rfl

end Sys2Proof.Proofs.Invariants
end

-- ==== Commands, resets and the ring's events, one at a time (41_command_port.md, 42_asid_ring.md) ====
section
namespace Sys2Proof.Proofs.Effects

open Sys2Proof Sys2Proof.Machine Sys2Proof.Proofs.Order Sys2Proof.Proofs.RingQueue Sys2Proof.Proofs.Invariants

/-! ## Reset (R38, R260) -/

/-- Every slot is inactive with the narrow mask after reset. -/
theorem reset_slot (slot : BitVec 2) : RouteTable.reset.slot slot = { cs := 0, amask := 0x1F } := by
  unfold RouteTable.slot
  split_ifs <;> rfl

theorem reset_routing (slot : BitVec 2) :
    (RouteTable.reset.slot slot).cs = 0b00 ∧ (RouteTable.reset.slot slot).amask = 0x1F := by
  rw [reset_slot]
  exact ⟨rfl, rfl⟩

theorem shadowByte_empty (i : BitVec 7) : shadowByte [] i = 0x00 := rfl

/-- Settles O1: the table's values are those `State.reset` is written with; an empty shadow reads 0x00. -/
theorem resetLeavesIdleBlock : Obligations.ResetLeavesIdleBlock :=
  ⟨rfl, rfl, rfl, rfl, reset_routing, shadowByte_empty, rfl, rfl, rfl, rfl, rfl, rfl, rfl, rfl, rfl, rfl, rfl, rfl,
    rfl, rfl, rfl, rfl, rfl, rfl, rfl, rfl, rfl⟩

theorem resetOf_powerOnReset (s : State) : ResetOf (powerOnReset s) s where
  request := rfl
  result := rfl
  phase := rfl
  mute := rfl
  routing := reset_routing
  shadow := shadowByte_empty
  flags := ⟨rfl, rfl, rfl, rfl⟩
  ring := ⟨rfl, rfl, rfl⟩
  rates := ⟨rfl, rfl, rfl⟩
  baseline := ⟨rfl, rfl⟩
  arrivals := ⟨rfl, rfl⟩
  chips := ⟨rfl, rfl⟩
  counters := ⟨rfl, rfl, rfl⟩
  pins := ⟨rfl, rfl⟩
  arguments := rfl
  trace := rfl

/-- The reset sees none of the inputs. -/
theorem resetOf_of_inbox {t s : State} {rest : List Input} (h : ResetOf t { s with inbox := rest }) : ResetOf t s :=
  { h with }

/-- Settles O19: by command and by the environment's input, which is permitted in every state. -/
theorem resetMcuIsPowerOnReset : Obligations.ResetMcuIsPowerOnReset := by
  refine ⟨fun s hfree => ⟨_, exec_of_free (i := .cmdResetMcu) (.inl rfl) hfree, resetOf_powerOnReset s⟩,
    fun s rest hclosed hinbox => ?_⟩
  have henv : dueEnv s = some (.powerOn, rest) := dueEnv_of_env (dueItem_cons s hinbox)
  exact ⟨_, step_of_env (gateFirst_of_closed hclosed) henv,
    resetOf_of_inbox (resetOf_powerOnReset { s with inbox := rest }), rfl, rfl⟩

/-! ## Bursts and reads (R150 to R153) -/

theorem startBurst_nil {s : State} (h : s.prim.todo = []) : startBurst [] s = s := by
  show { s with prim := { s.prim with todo := [] } } = s
  rw [← h]

theorem startBurst_cons (r : BusRequest) (rest : List BusRequest) (s : State) :
    startBurst (r :: rest) s = present r { s with prim := { s.prim with todo := rest } } := rfl

/-- Settles O13: a burst without operations leaves the empty list the free context had. -/
theorem burstStartsWithFirstGroup : Obligations.BurstStartsWithFirstGroup := by
  intro s n operands hfree
  obtain ⟨-, -, -, htodo, -⟩ := (primaryFree_iff s).1 hfree
  constructor
  · rw [exec_of_free (.inl rfl) hfree, effectOf]
    cases writeBurst n operands with
    | nil => rw [startBurst_nil htodo]
    | cons r rest => rfl
  · rw [exec_of_free (.inl rfl) hfree, effectOf]
    cases cycledWriteBurst n operands with
    | nil => rw [startBurst_nil htodo]
    | cons r rest => rfl

/-- Settles O16: the read is a burst of one operation, with a reply owed behind it. -/
theorem readCommandPresentsRead : Obligations.ReadCommandPresentsRead := fun _ _ hfree =>
  exec_of_free (i := .cmdRead _) (.inl rfl) hfree

/-! ## `CMD_RESET_SID` (R157, R244) -/

theorem ticks_resLeft (k : Nat) (s : State) : (ticks k s).resLeft = s.resLeft - k := by
  induction k with
  | zero => rfl
  | succ k ih => simp [Flight.ticks_succ, boundary, ih, Nat.sub_sub]

/-- Settles O18: a pulse loses one tick at each boundary, and the line is back when none is left. -/
theorem resetSidPulsesLine : Obligations.ResetSidPulsesLine := by
  refine ⟨fun p b rest hclass hsub hconfig hmute hunmute => ?_, rfl, fun s hfree => ?_⟩
  · rw [Mute.decode_cmd_of_commandClass hclass, hsub,
      Encodings.decodeCommand_subopResetSid hconfig hmute hunmute]
  · refine ⟨_, exec_of_free (i := .cmdResetSid) (.inl rfl) hfree, rfl, fun k => ?_⟩
    rw [resN, ticks_resLeft, effectOf, pulseResN_resLeft]
    exact decide_eq_decide.2 Nat.sub_eq_zero_iff_le

/-! ## Commands that only forward (R158, R159, R155) -/

theorem isReservedSubop_iff (sub : BitVec 5) : isReservedSubop sub = true ↔ 0x0A ≤ sub.toNat ∧ sub.toNat ≤ 0x14 := by
  rw [isReservedSubop, Bool.and_eq_true, decide_eq_true_iff, decide_eq_true_iff]

/-- The byte of a player's config command holds its control bits under three set ones (R97). -/
theorem playerByte_toNat (control : BitVec 5) :
    0xE0 ≤ (0b111#3 ++ control : Byte).toNat ∧ (0b111#3 ++ control : Byte).toNat % 32 = control.toNat := by
  revert control
  decide

/-- Settles O20: each command's effect on a free context is to forward, or nothing. -/
theorem forwardedCommandsLeaveBlock : Obligations.ForwardedCommandsLeaveBlock := by
  intro s hfree
  have heffect {i : Instr} (hformat : i.format = .cmd) : exec i s = .next (effectOf i s) :=
    exec_of_free (.inl hformat) hfree
  refine ⟨heffect rfl, heffect rfl, heffect rfl, heffect rfl, heffect rfl, heffect rfl, fun sub => ?unassigned,
    heffect rfl, fun c rest => heffect rfl, fun ops => heffect rfl, fun ops => heffect rfl, fun control ops => ?player⟩
  case unassigned =>
    rw [heffect rfl, effectOf]
    exact congrArg _ (if_congr (isReservedSubop_iff sub) rfl rfl)
  case player =>
    obtain ⟨hhigh, hcontrol⟩ := playerByte_toNat control
    exact ⟨_, hhigh, hcontrol, heffect rfl⟩

/-! ## The lazy initialisation (R170, R184) -/

theorem initialRate_toNat (s : State) :
    (initialRate s).toNat =
      if s.rate.baseRate ≠ 0 then max s.rate.baseRate.toNat 1 else s.par.rateDefault.toNat := by
  unfold initialRate
  split
  · have hwidth := s.rate.baseRate.isLt
    rw [BitVec.toNat_ofNat, Config.rateMin, Nat.mod_eq_of_lt (by omega)]
  · rfl

/-- Settles O21: an active subsystem is left alone; what `AsidInit` writes is its definition. -/
theorem lazyInitialisation : Obligations.LazyInitialisation := by
  refine fun s => ⟨ensureActive_of_active, fun hinactive => ?_⟩
  rw [ensureActive_of_inactive hinactive]
  exact ⟨rfl, rfl, rfl, rfl, initialRate_toNat s, rfl, rfl, rfl, rfl, rfl, rfl, rfl⟩

/-! ## `EV_PUSH` (R172) -/

theorem exec_evPush_of_free {s : State} (h : primaryFree s = true) (register value : Byte) (delay : Cycles) :
    exec (.evPush register value delay) s = .next (pushEntry register value delay (ensureActive s)) :=
  exec_of_free (i := .evPush register value delay) (.inr rfl) h

theorem saturatingSucc_toNat (n : Ticks) : (saturatingSucc n).toNat = min (n.toNat + 1) (2 ^ 32 - 1) := by
  have hwidth := n.isLt
  unfold saturatingSucc
  split
  · next hfull => rw [hfull, BitVec.toNat_allOnes]; decide
  · next hroom =>
    have hne : n.toNat ≠ 2 ^ 32 - 1 := fun h => hroom (BitVec.eq_of_toNat_eq (h.trans BitVec.toNat_allOnes.symm))
    show (n.toNat + 1) % 2 ^ 32 = _
    rw [Nat.mod_eq_of_lt (by omega)]
    omega

theorem delayBytes_toNat (delay : Cycles) :
    (delayHi delay).toNat = delay.toNat / 256 ∧ (delayLo delay).toNat = delay.toNat % 256 := by
  have hwidth := delay.isLt
  constructor
  · simp [delayHi, Nat.shiftRight_eq_div_pow]; omega
  · simp [delayLo]

/-- Settles O22: the two cases of the push on the initialised state; the bytes are those of the stored entry. -/
theorem pushStoresOrDrops : Obligations.PushStoresOrDrops := by
  intro s register value delay hfree
  refine ⟨_, exec_evPush_of_free hfree register value delay, ?_⟩
  generalize ensureActive s = b
  intro _ w next
  split
  · next hfull =>
    rw [pushEntry_full hfull]
    exact ⟨rfl, rfl, saturatingSucc_toNat _, rfl⟩
  · next hroom =>
    rw [pushEntry_store hroom]
    obtain ⟨hregister, hvalue, hhi, hlo⟩ := ringByte_storeEntry b.ring w register value delay
    obtain ⟨hhiNat, hloNat⟩ := delayBytes_toNat delay
    obtain ⟨hread, hsize, hwrite⟩ := pushed_frame b.ring register value delay
    exact ⟨hregister, hvalue, (congrArg BitVec.toNat hhi).trans hhiNat, (congrArg BitVec.toNat hlo).trans hloNat,
      fun o ho => ringByte_storeEntry_other b.ring register value delay ho, hwrite, hread, hsize, rfl⟩

/-! ## `EV_FRAME(k)` for `k >= 1` (R200, R202) -/

/-- Settles O29: the branch of another chip, on the initialised state. -/
theorem otherChipFrameRaisesEstimate : Obligations.OtherChipFrameRaisesEstimate := by
  intro s k hfree hk
  have htaken : takeFrame k s = noteChip k (ensureActive s) := if_neg hk
  refine ⟨_, exec_of_free (i := .evFrame k) (.inr rfl) hfree, ?_⟩
  rw [effectOf, htaken]
  exact ⟨rfl, rfl⟩

/-! ## The firing (R176, R178, R179) -/

theorem exec_evTimer_of_closed {s : State} (h : gateOpen s = false) : exec .evTimer s = .next s :=
  if_neg (by rw [h]; exact Bool.false_ne_true)

/-- A service, however it ends, has taken the firing and is over. -/
theorem endService_done (s : State) :
    (endService s).drain.inService = false ∧
      (s.drain.irqPending = false → (endService s).drain.irqPending = false) := by
  unfold endService
  dsimp only
  split
  · exact ⟨rfl, id⟩
  · split
    · exact ⟨rfl, fun _ => rfl⟩
    · exact ⟨rfl, id⟩

/-- Settles O41: the gate by its conditions; the service by the fill. -/
theorem timerStartsServiceThroughGate : Obligations.TimerStartsServiceThroughGate := by
  refine fun s => ⟨gateOpen_iff s, exec_evTimer_of_closed, fun hopen hfill => ⟨_, exec_evTimer_of_open hopen, ?drains⟩,
    fun hopen hfill => ⟨_, exec_evTimer_of_open hopen, ?idle⟩⟩
  case drains =>
    rw [startService_of_frame hfill]
    exact ⟨rfl, rfl, rfl, rfl, rfl, rfl⟩
  case idle =>
    rw [startService_of_little hfill]
    obtain ⟨hover, hpending⟩ := endService_done (serviceBegun 0 s)
    exact ⟨hpending rfl, hover⟩

/-- Settles O42: with at most a frame queued the service delivers nothing, so its end counts or tears down. -/
theorem hundredFirstIdleServiceTearsDown : Obligations.HundredFirstIdleServiceTearsDown := by
  intro s hopen hfill
  obtain ⟨-, hactive, -⟩ := (gateOpen_iff s).1 hopen
  refine ⟨_, exec_evTimer_of_open hopen, ?_⟩
  rw [startService_of_little hfill]
  obtain hwithin | hpast := Nat.lt_or_ge s.drain.idleCount 100
  · rw [endService_idle (s := serviceBegun 0 s) rfl hwithin]
    exact ⟨rfl, rfl, rfl, rfl, rfl, fun _ => ⟨rfl, hactive, rfl⟩, fun hpast => absurd hwithin (Nat.not_lt.2 hpast)⟩
  · rw [endService_teardown (s := serviceBegun 0 s) rfl hpast]
    exact ⟨rfl, rfl, rfl, rfl, rfl, fun hwithin => absurd hwithin (Nat.not_lt.2 hpast),
      fun _ => ⟨rfl, rfl, rfl, rfl, rfl, rfl⟩⟩

end Sys2Proof.Proofs.Effects
end

-- ==== The tick machine and the transactions (40_bus_operations.md section 3) ====
section
namespace Sys2Proof.Proofs.Transactions

open Sys2Proof Sys2Proof.Machine Sys2Proof.Proofs.Flight Sys2Proof.Proofs.BusOperations Sys2Proof.Proofs.Invariants

/-! ## What a tick in flight does not see (R120, R127) -/

/-- `s` with another routing table and another mute flag. -/
def rerouted (rt : RouteTable) (mute : Bool) (s : State) : State := { s with rt := rt, mute := mute }

section
variable (rt : RouteTable) (mute : Bool) (s : State)

theorem endXfer_rerouted : endXfer (rerouted rt mute s) = rerouted rt mute (endXfer s) := by
  cases hrw : s.seq.rw
  · rw [endXfer_write hrw, endXfer_write (s := rerouted rt mute s) hrw]; rfl
  · rw [endXfer_read hrw rfl, endXfer_read (s := rerouted rt mute s) hrw rfl]; rfl

theorem advanceSeq_rerouted : advanceSeq (rerouted rt mute s) = rerouted rt mute (advanceSeq s) := by
  cases hphase : s.seq.phase with
  | idle => rw [advanceSeq_idle hphase, advanceSeq_idle (s := rerouted rt mute s) hphase]
  | delay =>
    by_cases hlast : s.seq.dly - 1 = 0
    · rw [advanceSeq_delay_last hphase hlast, advanceSeq_delay_last (s := rerouted rt mute s) hphase hlast,
        apply_ite (rerouted rt mute)]
      rfl
    · rw [advanceSeq_delay hphase hlast, advanceSeq_delay (s := rerouted rt mute s) hphase hlast]; rfl
  | xfer =>
    by_cases hlast : s.seq.xcnt - 1 = 0
    · rw [advanceSeq_xfer_last hphase hlast, advanceSeq_xfer_last (s := rerouted rt mute s) hphase hlast]
      exact endXfer_rerouted rt mute { s with seq := { s.seq with xcnt := s.seq.xcnt - 1 } }
    · rw [advanceSeq_xfer hphase hlast, advanceSeq_xfer (s := rerouted rt mute s) hphase hlast]; rfl

theorem timerTick_rerouted : timerTick (rerouted rt mute s) = rerouted rt mute (timerTick s) := by
  cases hactive : s.drain.active with
  | false => rw [timerTick_inactive hactive, timerTick_inactive (s := rerouted rt mute s) hactive]
  | true =>
    obtain hcount | hfire := Nat.lt_or_ge (s.drain.irqCnt.toNat + 1) s.drain.irqPeriod.toNat
    · rw [timerTick_count hactive hcount, timerTick_count (s := rerouted rt mute s) hactive hcount]; rfl
    · rw [timerTick_fire hactive hfire, timerTick_fire (s := rerouted rt mute s) hactive hfire]; rfl

end

/-- Settles O8: with no request waiting a boundary is the counter, the timer and the operation's advance, none of which
looks at the table or the flag. -/
theorem flightIgnoresRoutingAndMute : Obligations.FlightIgnoresRoutingAndMute := by
  intro s rt mute _ hvalid
  have hcount : (timerTick (countTick s)).req.valid = false := by simpa using hvalid
  show seqTick (timerTick (rerouted rt mute (countTick s))) = rerouted rt mute (seqTick (timerTick (countTick s)))
  rw [timerTick_rerouted, seqTick_of_no_request hcount,
    seqTick_of_no_request (s := rerouted rt mute (timerTick (countTick s))) hcount, advanceSeq_rerouted]

/-! ## Requests that wait (R126) -/

/-- Acceptance takes the request off the port and leaves its operands. -/
theorem accept_req (s : State) : (accept s).req = { s.req with valid := false } := by
  rw [accept_eq]
  split
  · simp [unloaded]
  · simp [unloaded]
  · simp [unloaded]
  · simp [unloaded]

theorem present_no_request {s : State} (hidle : s.seq.phase = .idle) (r : BusRequest) :
    (present r s).req.valid = false := by
  rw [present_of_idle r hidle, accept_req]

theorem byRequester_of_busy {i : Instr} {r : BusRequest} {s : State} (hservice : s.drain.inService = false)
    (hmid : midCommand s = false) (hvalid : s.req.valid = false) (hbusy : busy s = true) :
    byRequester i r s = .next (writeRequest r s) := by
  rw [byRequester, hservice, hmid, hvalid, present_of_busy r ((busy_iff s).1 hbusy)]
  rfl

theorem seqTick_of_request {s : State} (h : s.req.valid = true) :
    seqTick s = if (advanceSeq s).seq.phase = .idle then accept (advanceSeq s) else advanceSeq s := by
  have hvalid : (advanceSeq s).req.valid = true := by simpa using h
  simp only [seqTick, hvalid, and_true]

/-- Settles O9: a busy sequencer leaves the request at the port; the boundary at which it is idle accepts it. -/
theorem requestWaitsWhileBusy : Obligations.RequestWaitsWhileBusy := by
  constructor
  · intro s hservice hmid hvalid hbusy
    have hwaits (i : Instr) (r : BusRequest) : byRequester i r s = .next (writeRequest r s) :=
      byRequester_of_busy hservice hmid hvalid hbusy
    exact ⟨fun _ _ => ⟨_, hwaits _ _, rfl, rfl, rfl, rfl, rfl⟩, fun _ _ _ => ⟨_, hwaits _ _, rfl, rfl⟩,
      fun _ _ => ⟨_, hwaits _ _, rfl, rfl, rfl, rfl, rfl⟩, fun _ => ⟨_, hwaits _ _, rfl, rfl, rfl, rfl⟩⟩
  · intro s hvalid
    have hreq : (advanceSeq s).req = s.req := by simp
    refine ⟨seqTick_of_request hvalid, ?_⟩
    rw [seqTick_of_request hvalid]
    split
    · next hidle => rw [accept_req, hreq, hidle]; rfl
    · next hbusy => rw [hreq, decide_eq_true hbusy, ← hvalid]

/-! ## Acceptance beside the ring and the drain (R176) -/

/-- `s` with the ring and the drain's registers of `e`. -/
def besideDrain (s e : State) : State := { s with ring := e.ring, drain := e.drain }

section
variable (s e : State)

theorem startTransfer_besideDrain (n : Cycles) :
    startTransfer n (besideDrain s e) = besideDrain (startTransfer n s) e := by
  unfold startTransfer
  split <;> rfl

theorem acceptWrite_besideDrain (n : Cycles) : acceptWrite n (besideDrain s e) = besideDrain (acceptWrite n s) e := by
  cases hres : resolve s.rt s.req.addr with
  | skip => rw [acceptWrite_skip n hres, acceptWrite_skip (s := besideDrain s e) n hres]
  | active cs a sidx =>
    rw [acceptWrite_active n hres, acceptWrite_active (s := besideDrain s e) n hres]
    exact startTransfer_besideDrain (latchWrite cs a sidx s) e n

end

/-- A cycled write is accepted alike whatever the ring and the drain hold. -/
theorem present_cycledWrite_besideDrain {s : State} (hidle : s.seq.phase = .idle) (e : State) (address data : Byte)
    (n : Cycles) :
    present (.cycledWrite address data n) (besideDrain s e) =
      besideDrain (present (.cycledWrite address data n) s) e := by
  rw [present_cycledWrite hidle, present_cycledWrite (s := besideDrain s e) hidle]
  exact acceptWrite_besideDrain (taken (.cycledWrite address data n) s) e n

theorem exec_ringEntry_of_ready {s : State} (h : entryReady s = true) (register value : Byte) (delay : Cycles) :
    exec (.ringEntry register value delay) s = .next (present (.cycledWrite register value delay) (entryTaken s)) :=
  if_pos h

theorem exec_ringEntry_of_not_ready {s : State} (h : entryReady s = false) (register value : Byte) (delay : Cycles) :
    exec (.ringEntry register value delay) s = .next s :=
  if_neg (by rw [h]; exact Bool.false_ne_true)

/-- Settles O43: the entry is taken in the ring and the drain alone, beside which its write is accepted. -/
theorem ringEntryIsCycledWrite : Obligations.RingEntryIsCycledWrite := by
  intro s register value delay
  refine ⟨fun hnot => exec_ringEntry_of_not_ready hnot register value delay, fun hready => ?_⟩
  obtain ⟨-, hidle, -⟩ := (entryReady_iff s).1 hready
  refine ⟨_, exec_ringEntry_of_ready hready register value delay, by simp [entryTaken, RingQueue.popped, Ring.next,
    Config.entryBytes], by simp [entryTaken], ?_, present_no_request (s := entryTaken s) hidle _⟩
  exact (present_cycledWrite_besideDrain (s := entryTaken s) hidle s register value delay).symm

/-! ## Operations as transactions (R122 to R125, R131) -/

/-- From `t` on the sequencer's ticks take exactly `k` to be idle, and then everything but the request registers and
the latches is as in `v`. -/
structure CompletesAs (t : State) (k : Nat) (v : State) : Prop where
  idle : (seqRun k t).seq.phase = .idle
  agrees : { seqRun k t with seq := v.seq, req := v.req } = v
  busy : ∀ j, j < k → (seqRun j t).seq.phase ≠ .idle

/-- The registers `agrees` leaves out may be anyone's. -/
theorem completesAs_relatch {t v : State} {k : Nat} (h : CompletesAs t k v) (e : State) :
    CompletesAs t k { v with seq := e.seq, req := e.req } where
  idle := h.idle
  agrees := congrArg (fun u : State => { u with seq := e.seq, req := e.req }) h.agrees
  busy := h.busy

theorem completesAs_idle {s : State} (h : s.seq.phase = .idle) : CompletesAs s 0 s where
  idle := h
  agrees := rfl
  busy _ hj := absurd hj (Nat.not_lt_zero _)

section
variable {s : State} {n : Cycles} {cs : BitVec 2} {a : BitVec 6} {sidx : BitVec 7}

theorem startTransfer_busy (hs : Ready s) (hop : s.seq.op ≠ .cycledDelay) {j : Nat} (hj : j < n.toNat + s.par.tXfer) :
    (seqRun j (startTransfer n s)).seq.phase ≠ .idle := by
  by_cases hdelay : j < n.toNat
  · rw [seqRun_startTransfer_delay hs hdelay]
    nofun
  · obtain ⟨i, rfl⟩ := Nat.exists_eq_add_of_le (Nat.not_lt.1 hdelay)
    rw [seqRun_startTransfer_xfer hs hop (by omega)]
    nofun

/-- The labels of the delay and of the transfer add up (R134). -/
theorem cyc_add_completion (t : Ticks) (m x : Nat) :
    t + BitVec.ofNat 32 m + BitVec.ofNat 32 x = t + BitVec.ofNat 32 (m + x) := by
  rw [BitVec.ofNat_add, BitVec.add_assoc]

theorem completesAs_write (hs : Ready s) (hop : s.seq.op ≠ .cycledDelay) :
    CompletesAs (startTransfer n (latchWrite cs a sidx s)) (n.toNat + s.par.tXfer)
      { s with
        shadow := shadowStore s.shadow sidx s.req.data
        trace := s.trace ++
          [.write (s.cyc + BitVec.ofNat 32 n.toNat) cs a (muteFilter s.mute sidx s.req.data)]
        cyc := s.cyc + BitVec.ofNat 32 (n.toNat + s.par.tXfer) } := by
  have hready : Ready (latchWrite cs a sidx s) := ready_latchWrite hs
  have hrun : seqRun (n.toNat + s.par.tXfer) (startTransfer n (latchWrite cs a sidx s)) = _ :=
    (seqRun_startTransfer_end hready hop).trans (endXfer_write rfl)
  refine ⟨by rw [hrun], ?_, fun j hj => startTransfer_busy hready hop hj⟩
  rw [hrun]
  simp only [transferring, enterXfer, waited, latchWrite, cyc_add_completion, ← hs.idle_pins]
  rfl

theorem completesAs_read (hs : Ready s) (hop : s.seq.op ≠ .cycledDelay) :
    let v := Config.busRead s.reads (s.cyc + BitVec.ofNat 32 n.toNat) cs a
    CompletesAs (startTransfer n (latchRead cs a sidx s)) (n.toNat + s.par.tXfer)
      { s with
        result := v
        resultValid := true
        shadow := shadowStore s.shadow sidx v
        trace := s.trace ++ [.read (s.cyc + BitVec.ofNat 32 n.toNat) cs a v]
        reads := s.reads + 1
        cyc := s.cyc + BitVec.ofNat 32 (n.toNat + s.par.tXfer) } := by
  have hready : Ready (latchRead cs a sidx s) := ready_latchRead hs
  have hrun : seqRun (n.toNat + s.par.tXfer) (startTransfer n (latchRead cs a sidx s)) = _ :=
    (seqRun_startTransfer_end hready hop).trans (endXfer_read rfl rfl)
  refine ⟨by rw [hrun], ?_, fun j hj => startTransfer_busy hready hop hj⟩
  rw [hrun]
  simp only [transferring, enterXfer, waited, latchRead, cyc_add_completion, ← hs.idle_pins]
  rfl

theorem completesAs_delay (hs : Ready s) (hop : s.seq.op = .cycledDelay) :
    CompletesAs (acceptDelay s) s.req.cycles.toNat
      { s with cyc := s.cyc + BitVec.ofNat 32 s.req.cycles.toNat } := by
  by_cases hzero : s.req.cycles = 0
  · rw [acceptDelay_zero hzero, hzero]
    simpa using completesAs_idle hs.idle
  · have hrun : seqRun s.req.cycles.toNat (startDelay s.req.cycles s) = _ :=
      (seqRun_delay_end (s := startDelay s.req.cycles s) rfl hs.no_request hzero).trans (if_pos hop)
    rw [acceptDelay_waits hzero]
    refine ⟨by rw [hrun], ?_, fun j hj => ?_⟩
    · rw [hrun]; rfl
    · rw [seqRun_delay (s := startDelay s.req.cycles s) rfl hs.no_request hj]
      nofun

end

theorem ready_taken_of_ready {s : State} (h : Ready s) (r : BusRequest) : Ready (taken r s) where
  no_request := rfl
  idle := by simpa [taken] using h.idle
  idle_pins := by simpa [taken] using h.idle_pins
  xfer_pos := by simpa [taken] using h.xfer_pos

/-- Every operation accepted by an idle sequencer completes as its transaction, after the ticks R134 gives it. -/
theorem present_completesAs {s : State} (h : Ready s) (r : BusRequest) :
    CompletesAs (present r s) (completionTicks r s) (transact r s) := by
  have ht := ready_taken_of_ready h r
  cases r with
  | write address data =>
    rw [present_write h.idle]
    cases hres : resolve s.rt address with
    | skip =>
      rw [acceptWrite_skip (s := taken (.write address data) s) 0 hres]
      simp only [completionTicks, transact, transactWrite, hres]
      exact completesAs_relatch (completesAs_idle ht.idle) s
    | active cs a sidx =>
      rw [acceptWrite_active (s := taken (.write address data) s) 0 hres]
      simp only [completionTicks, transact, transactWrite, hres]
      exact completesAs_relatch (completesAs_write ht nofun) s
  | cycledWrite address data n =>
    rw [present_cycledWrite h.idle]
    cases hres : resolve s.rt address with
    | skip =>
      rw [acceptWrite_skip (s := taken (.cycledWrite address data n) s) n hres]
      simp only [completionTicks, transact, transactWrite, hres]
      exact completesAs_relatch (completesAs_idle ht.idle) s
    | active cs a sidx =>
      rw [acceptWrite_active (s := taken (.cycledWrite address data n) s) n hres]
      simp only [completionTicks, transact, transactWrite, hres]
      exact completesAs_relatch (completesAs_write ht nofun) s
  | cycledRead address n =>
    rw [present_cycledRead h.idle]
    cases hres : resolve s.rt address with
    | skip =>
      rw [acceptRead_skip (s := taken (.cycledRead address n) s) hres]
      simp only [completionTicks, transact, transactRead, hres]
      refine completesAs_relatch (completesAs_idle ?_) s
      exact ht.idle
    | active cs a sidx =>
      rw [acceptRead_active (s := taken (.cycledRead address n) s) hres]
      simp only [completionTicks, transact, transactRead, hres]
      exact completesAs_relatch (completesAs_read ht nofun) s
  | cycledDelay n =>
    rw [present_cycledDelay h.idle]
    exact completesAs_relatch (completesAs_delay ht rfl) s

/-- What a transaction may write (R122 to R125). -/
theorem transact_eq (r : BusRequest) (s : State) :
    transact r s =
      { s with
        cyc := (transact r s).cyc, result := (transact r s).result, resultValid := (transact r s).resultValid
        shadow := (transact r s).shadow, trace := (transact r s).trace, reads := (transact r s).reads } := by
  cases r with
  | write | cycledWrite => simp only [transact, transactWrite]; split <;> rfl
  | cycledRead => simp only [transact, transactRead]; split <;> rfl
  | cycledDelay => rfl

/-- It speaks of neither the request registers nor the latches, and leaves the pins and the arguments. -/
theorem transact_frame (r : BusRequest) (s : State) :
    (transact r s).seq = s.seq ∧ (transact r s).req = s.req ∧ (transact r s).pins = s.pins ∧
      (transact r s).par = s.par := by
  rw [transact_eq]
  exact ⟨rfl, rfl, rfl, rfl⟩

/-- Settles O7: operation by operation, from the closed form of its ticks. -/
theorem ticksAgreeWithTransaction : Obligations.TicksAgreeWithTransaction := by
  intro s r hxfer hidle hvalid hpins
  have hcompletes := present_completesAs ⟨hvalid, hidle, hpins, hxfer⟩ r
  obtain ⟨hseq, hreq, -⟩ := transact_frame r s
  have hagrees := hcompletes.agrees
  rw [hseq, hreq] at hagrees
  exact ⟨hcompletes.idle, hagrees, hcompletes.busy⟩

end Sys2Proof.Proofs.Transactions
end

-- ==== Runs: bursts from their start to their end (41_command_port.md) ====
section
namespace Sys2Proof.Proofs.Runs

open Sys2Proof Sys2Proof.Machine Sys2Proof.Proofs.Flight Sys2Proof.Proofs.BusOperations Sys2Proof.Proofs.Invariants
  Sys2Proof.Proofs.Order Sys2Proof.Proofs.Effects Sys2Proof.Proofs.RingQueue Sys2Proof.Proofs.Transactions

/-! ## Runs of the machine -/

theorem run_succ {s t : State} (h : step s = .next t) (k : Nat) :
    Sys2Proof.core.run (k + 1) s = Sys2Proof.core.run k t := by
  have hcore : Sys2Proof.core.step s = .next t := h
  simp only [Host.Core.run, hcore]

theorem run_one {s t : State} (h : step s = .next t) : Sys2Proof.core.run 1 s = .next t := run_succ h 0

theorem run_trans {m k : Nat} {s t : State} {o : Host.Outcome State Fault Refusal}
    (hm : Sys2Proof.core.run m s = .next t) (hk : Sys2Proof.core.run k t = o) :
    Sys2Proof.core.run (m + k) s = o := by
  induction m generalizing s with
  | zero => cases hm; rwa [Nat.zero_add]
  | succ m ih =>
    obtain ⟨u, hstep⟩ := everyStepContinues s
    rw [run_succ hstep] at hm
    rw [Nat.succ_add, run_succ hstep, ih hm]

/-! ## Boundaries while an operation is outstanding -/

theorem ticks_inbox {t : State} (h : t.inbox = []) (k : Nat) : (ticks k t).inbox = [] := by
  induction k with
  | zero => exact h
  | succ k ih => rw [ticks_succ, boundary_inbox, ih]; rfl

theorem ticks_resumed {t : State} (h : t.resumed = false) (k : Nat) : (ticks k t).resumed = false := by
  cases k with
  | zero => exact h
  | succ k => simp [ticks_succ, boundary]

theorem ticks_ring (k : Nat) (t : State) : (ticks k t).ring = t.ring := by
  induction k with
  | zero => rfl
  | succ k ih => simpa [ticks_succ] using ih

theorem ticks_prim (k : Nat) (t : State) : (ticks k t).prim = t.prim := by
  induction k with
  | zero => rfl
  | succ k ih => simpa [ticks_succ] using ih

/-- The timer's registers are not those of the service. -/
theorem ticks_service (k : Nat) (t : State) :
    (ticks k t).drain.inService = t.drain.inService ∧ (ticks k t).drain.left = t.drain.left ∧
      (ticks k t).drain.delivered = t.drain.delivered := by
  induction k with
  | zero => exact ⟨rfl, rfl, rfl⟩
  | succ k ih => simpa [ticks_succ, boundary] using ih

theorem inv_ticks {t : State} (h : Inv t) (k : Nat) : Inv (ticks k t) := by
  induction k with
  | zero => exact h
  | succ k ih => rw [ticks_succ]; exact inv_boundary ih

theorem ticks_drain_of_inactive {t : State} (h : t.drain.active = false) (k : Nat) :
    (ticks k t).drain = t.drain := by
  induction k with
  | zero => rfl
  | succ k ih =>
    have hinactive : (countTick (ticks k t)).drain.active = false := by rw [countTick_drain, ih, h]
    rw [ticks_succ, boundary, timerTick_inactive hinactive]
    simpa using ih

section
variable {t : State} {k : Nat} (hbusy : ∀ j, j < k → quiet (ticks j t) = false)
include hbusy

/-- Nobody's pause runs while an operation is outstanding. -/
theorem ticks_pace : (ticks k t).pace = t.pace := by
  induction k with
  | zero => rfl
  | succ k ih =>
    have hpace := ih fun j hj => hbusy j (hj.trans (Nat.lt_succ_self k))
    rw [ticks_succ]
    simpa [boundary, paceTick_of_busy (hbusy k (Nat.lt_succ_self k))] using hpace

/-- With no input to come, steps are boundaries for as long as an operation is outstanding. -/
theorem run_ticks (hinbox : t.inbox = []) : Sys2Proof.core.run k t = .next (ticks k t) := by
  induction k with
  | zero => rfl
  | succ k ih =>
    have hstep : step (ticks k t) = .next (boundary (ticks k t)) :=
      step_of_outstanding (dueEnv_of_empty (ticks_inbox hinbox k)) (hbusy k (Nat.lt_succ_self k))
    rw [ticks_succ]
    exact run_trans (ih fun j hj => hbusy j (hj.trans (Nat.lt_succ_self k))) (run_one hstep)

end

/-! ## One operation from its presentation to its completion (R122 to R125) -/

/-- The state at the completion of the operation `r`, presented in `s`. -/
def completed (r : BusRequest) (s : State) : State := ticks (completionTicks r s) (present r s)

/-- `u`, with what a transaction does not speak of as in `s`: the request registers, the latches, and what boundaries
move beside the sequencer. -/
def busPart (u s : State) : State :=
  { u with seq := s.seq, req := s.req, resLeft := s.resLeft, drain := s.drain, resumed := s.resumed,
           inbox := s.inbox, pace := s.pace }

section
variable {s : State} (h : Ready s) (r : BusRequest)
include h

theorem completed_busy {j : Nat} (hj : j < completionTicks r s) : quiet (ticks j (present r s)) = false := by
  have hphase := (present_completesAs h r).busy j hj
  obtain ⟨hseq, -⟩ := ticks_sequencer (present_no_request h.idle r) j
  refine Bool.eq_false_iff.2 fun hquiet => hphase ?_
  rw [← hseq]
  exact ((quiet_iff _).1 hquiet).1

theorem completed_quiet : quiet (completed r s) = true := by
  have hvalid := present_no_request h.idle r
  refine (quiet_iff _).2 ⟨?_, ?_⟩
  · exact (congrArg Seq.phase (ticks_sequencer hvalid _).1).trans (present_completesAs h r).idle
  · rw [completed, ticks_eq_seqRun hvalid]
    exact (congrArg Req.valid (seqRun_req hvalid _)).trans hvalid

theorem busPart_completed : busPart (completed r s) s = transact r s := by
  obtain ⟨hseq, hreq, -⟩ := transact_frame r s
  have hagrees := (present_completesAs h r).agrees
  rw [hseq, hreq] at hagrees
  have hbeside : withSurroundings (transact r s) s = transact r s := by
    rw [transact_eq]
    rfl
  rw [completed, ticks_eq_seqRun (present_no_request h.idle r)]
  exact (congrArg (withSurroundings · s) hagrees).trans hbeside

theorem run_completed (hinbox : s.inbox = []) :
    Sys2Proof.core.run (completionTicks r s) (present r s) = .next (completed r s) :=
  run_ticks (fun _ hj => completed_busy h r hj) (by simpa using hinbox)

theorem completed_pace : (completed r s).pace = s.pace :=
  (ticks_pace fun _ hj => completed_busy h r hj).trans (by simp)

theorem completed_ready : Ready (completed r s) where
  no_request := ((quiet_iff _).1 (completed_quiet h r)).2
  idle := ((quiet_iff _).1 (completed_quiet h r)).1
  idle_pins := by
    obtain ⟨-, -, hpins, -⟩ := transact_frame r s
    exact (congrArg State.pins (busPart_completed h r)).trans (hpins.trans h.idle_pins)
  xfer_pos := by
    obtain ⟨-, -, -, hpar⟩ := transact_frame r s
    have hpar' : (completed r s).par = s.par := (congrArg State.par (busPart_completed h r)).trans hpar
    rw [hpar']
    exact h.xfer_pos

end

/-! ## Transactions beside the primary context's own place (R150) -/

/-- `v`, with the request registers, the latches and the primary context's place of `e`. -/
def placedAs (v e : State) : State := { v with seq := e.seq, req := e.req, prim := e.prim }

theorem transact_placedAs (r : BusRequest) (v e : State) :
    transact r (placedAs v e) = placedAs (transact r v) e := by
  cases r with
  | write address data =>
    cases hres : resolve v.rt address <;> simp only [transact, transactWrite, placedAs, hres]
  | cycledWrite address data n =>
    cases hres : resolve v.rt address <;> simp only [transact, transactWrite, placedAs, hres]
  | cycledRead address n =>
    cases hres : resolve v.rt address <;> simp only [transact, transactRead, placedAs, hres]
  | cycledDelay n => rfl

theorem transact_prim (r : BusRequest) (s : State) (p : Primary) :
    transact r { s with prim := p } = { transact r s with prim := p } := by
  obtain ⟨hseq, hreq, -⟩ := transact_frame r s
  refine (transact_placedAs r s { s with prim := p }).trans ?_
  rw [placedAs, ← hseq, ← hreq]

/-- The transactions of `ops`, each begun at the completion of the one before. -/
def transactAll (ops : List BusRequest) (s : State) : State := ops.foldl (fun v r => transact r v) s

theorem transactAll_placedAs (ops : List BusRequest) (v e : State) :
    transactAll ops (placedAs v e) = placedAs (transactAll ops v) e := by
  induction ops generalizing v with
  | nil => rfl
  | cons r rest ih =>
    show transactAll rest (transact r (placedAs v e)) = placedAs (transactAll rest (transact r v)) e
    rw [transact_placedAs, ih]

/-- Transactions leave the place where it is. -/
theorem placedAs_transactAll (ops : List BusRequest) (s : State) :
    placedAs (transactAll ops s) s = transactAll ops s :=
  (transactAll_placedAs ops s s).symm

/-! ## Bursts with nothing else going on (R150 to R153) -/

/-- The sequencer is ready for an operation, and only the primary context will move. -/
structure Alone (s : State) : Prop where
  ready : Ready s
  only : OnlyPrimary s
  no_service : s.drain.inService = false

theorem alone_of_free {s : State} (hinv : Inv s) (hfree : primaryFree s = true) (honly : OnlyPrimary s) : Alone s := by
  obtain ⟨hservice, hidle, hvalid, -⟩ := (primaryFree_iff s).1 hfree
  exact ⟨⟨hvalid, hidle, hinv.seq.idle_pins hidle, tXfer_pos hinv⟩, honly, hservice⟩

theorem alone_of_prim {s : State} (h : Alone s) (p : Primary) : Alone { s with prim := p } :=
  ⟨⟨h.ready.no_request, h.ready.idle, h.ready.idle_pins, h.ready.xfer_pos⟩, h.only, h.no_service⟩

theorem gateFirst_of_alone {s : State} (h : Alone s) : gateFirst s = false := by
  obtain ⟨hinactive, -⟩ := h.only
  exact gateFirst_of_closed (gateOpen_of_inactive hinactive)

section
variable {s : State} (h : Alone s) (r : BusRequest)
include h

theorem completed_alone : Alone (completed r s) := by
  obtain ⟨hinactive, hinbox, hpauses, hpulse, hresumed⟩ := h.only
  have hdrain : (completed r s).drain = s.drain :=
    (ticks_drain_of_inactive (by simpa using hinactive) _).trans (by simp)
  have hpace := completed_pace h.ready r
  have hpulse' : (completed r s).resLeft = 0 := by
    rw [completed, ticks_resLeft]
    simp [hpulse]
  exact ⟨completed_ready h.ready r,
    ⟨by rw [hdrain]; exact hinactive, ticks_inbox (by simpa using hinbox) _, by rw [hpace]; exact hpauses, hpulse',
      ticks_resumed (by simpa using hresumed) _⟩,
    by rw [hdrain]; exact h.no_service⟩

/-- With nothing else going on an operation moves nothing but what its transaction speaks of. -/
theorem completed_eq_transact : completed r s = placedAs (transact r s) (completed r s) := by
  obtain ⟨-, hinbox, -, hpulse, hresumed⟩ := h.only
  obtain ⟨-, ⟨-, hinbox', -, hpulse', hresumed'⟩, -⟩ := completed_alone h r
  have hdrain : (completed r s).drain = s.drain := by
    obtain ⟨hinactive, -⟩ := h.only
    exact (ticks_drain_of_inactive (by simpa using hinactive) _).trans (by simp)
  rw [← busPart_completed h.ready r, busPart, ← hdrain, ← completed_pace h.ready r, hinbox, hpulse, hresumed,
    ← hinbox', ← hpulse', ← hresumed']
  rfl

end

theorem completed_prim (r : BusRequest) (s : State) : (completed r s).prim = s.prim :=
  (ticks_prim _ _).trans (by simp)

/-- Between two operations of a burst the primary context presents the next; after the last it has nothing to do. -/
theorem run_next_operation {s : State} (h : Alone s) : ∃ k, Sys2Proof.core.run k s = .next (startBurst s.prim.todo s) := by
  obtain ⟨-, hinbox, hpauses, -, hresumed⟩ := h.only
  by_cases hdone : s.prim.todo = []
  · exact ⟨0, by rw [hdone, startBurst_nil hdone]; rfl⟩
  · have hsame : { s with pace := { s.pace with primary := s.pace.primary.tail }, resumed := false } = s := by
      rw [hpauses, List.tail_nil, ← hpauses, ← hresumed]
    have hdue : paceDue s.pace.primary = true := by rw [hpauses]; rfl
    refine ⟨1, run_one ?_⟩
    rw [step_of_burst (gateFirst_of_alone h) (dueEnv_of_empty hinbox)
      ((quiet_iff s).2 ⟨h.ready.idle, h.ready.no_request⟩) h.no_service hdone, continueBurst, if_pos hdue, hsame]
    rfl

/-- A burst runs to its end, where everything beside the primary context's place is as its transactions leave it. -/
theorem run_burst (ops : List BusRequest) {s : State} (h : Alone s) (htodo : s.prim.todo = []) :
    ∃ k u, Sys2Proof.core.run k (startBurst ops s) = .next u ∧ Alone u ∧ u.prim = s.prim ∧
      u = placedAs (transactAll ops s) u := by
  induction ops generalizing s with
  | nil => exact ⟨0, s, by rw [startBurst_nil htodo]; rfl, h, rfl, rfl⟩
  | cons r rest ih =>
    have hcurrent : Alone { s with prim := { s.prim with todo := rest } } := alone_of_prim h _
    obtain ⟨-, hinbox, -⟩ := hcurrent.only
    have hprim := completed_prim r { s with prim := { s.prim with todo := rest } }
    have heq := completed_eq_transact hcurrent r
    rw [transact_prim] at heq
    have hdone := completed_alone hcurrent r
    have hfirst := run_completed hcurrent.ready r hinbox
    generalize completed r { s with prim := { s.prim with todo := rest } } = t at *
    obtain ⟨k₁, hnext⟩ := run_next_operation hdone
    have hrest : startBurst t.prim.todo t = startBurst rest { t with prim := s.prim } := by
      rw [startBurst, startBurst, hprim]
    obtain ⟨k₂, u, hrun, halone, hprim', heq'⟩ := ih (alone_of_prim hdone s.prim) htodo
    rw [hrest] at hnext
    refine ⟨_, u, run_trans hfirst (run_trans hnext hrun), halone, hprim', heq'.trans ?_⟩
    have hplaced : { t with prim := s.prim } = placedAs (transact r s) { t with prim := s.prim } :=
      congrArg (fun v : State => { v with prim := s.prim }) heq
    rw [hplaced, transactAll_placedAs]
    rfl

/-- What `run_burst` says of the end, in the registers' terms. -/
theorem placedAs_end {F s u : State} (hF : placedAs F s = F) (hprim : u.prim = s.prim) (h : u = placedAs F u) :
    { u with seq := s.seq, req := s.req } = F := by
  rw [h, ← hF, placedAs, hprim]
  rfl

theorem free_of_alone {s : State} (h : Alone s) (htodo : s.prim.todo = []) (hreply : s.prim.replyDue = false) :
    primaryFree s = true :=
  (primaryFree_iff s).2 ⟨h.no_service, h.ready.idle, h.ready.no_request, htodo, hreply⟩

/-- A whole burst from a free primary context. -/
theorem burst_completes {s : State} (hinv : Inv s) (hfree : primaryFree s = true) (honly : OnlyPrimary s)
    (ops : List BusRequest) :
    ∃ k u, Sys2Proof.core.run k (startBurst ops s) = .next u ∧ primaryFree u = true ∧
      { u with seq := s.seq, req := s.req } = transactAll ops s := by
  obtain ⟨-, -, -, htodo, hreply⟩ := (primaryFree_iff s).1 hfree
  obtain ⟨k, u, hrun, halone, hprim, heq⟩ := run_burst ops (alone_of_free hinv hfree honly) htodo
  exact ⟨k, u, hrun, free_of_alone halone (by rw [hprim, htodo]) (by rw [hprim, hreply]),
    placedAs_end (placedAs_transactAll ops s) hprim heq⟩

/-- Settles O14: both bursts by induction on their operations. -/
theorem burstIsSequenceOfTransactions : Obligations.BurstIsSequenceOfTransactions := by
  intro s n operands hinv hfree honly
  obtain ⟨k, u, hwrite⟩ := burst_completes hinv hfree honly (writeBurst n operands)
  obtain ⟨k', u', hcycled⟩ := burst_completes hinv hfree honly (cycledWriteBurst n operands)
  exact ⟨⟨_, k, u, exec_of_free (i := .cmdWrite n operands) (.inl rfl) hfree, hwrite⟩,
    ⟨_, k', u', exec_of_free (i := .cmdCycledWrite n operands) (.inl rfl) hfree, hcycled⟩⟩

/-! ## `CMD_READ` to its reply (R152) -/

theorem exec_cmdRead_of_free {s : State} (h : primaryFree s = true) (address : Option Byte) :
    exec (.cmdRead address) s = .next (startRead address s) :=
  exec_of_free (i := .cmdRead address) (.inl rfl) h

/-- With its burst over, a command that owes a reply sends it. -/
theorem step_reply_of_alone {s : State} (h : Alone s) (htodo : s.prim.todo = []) (hreply : s.prim.replyDue = true) :
    step s = .next (sendReply s) := by
  obtain ⟨-, hinbox, -, -, hresumed⟩ := h.only
  have hsame : { s with resumed := false } = s := by rw [← hresumed]
  rw [step_of_reply (gateFirst_of_alone h) (dueEnv_of_empty hinbox)
    ((quiet_iff s).2 ⟨h.ready.idle, h.ready.no_request⟩) h.no_service htodo hreply, hsame]

theorem sendReply_alone {s : State} (h : Alone s) : Alone (sendReply s) :=
  ⟨⟨h.ready.no_request, h.ready.idle, h.ready.idle_pins, h.ready.xfer_pos⟩, h.only, h.no_service⟩

/-- The reply is put behind the others, and the debt is gone. -/
theorem sendReply_end {F s u : State} (hF : placedAs F s = F) (h : u = placedAs F u) (hreplies : F.replies = s.replies)
    (hprim : { u.prim with replyDue := false } = s.prim) :
    { sendReply u with seq := s.seq, req := s.req } = { F with replies := s.replies ++ [F.result] } := by
  calc { sendReply u with seq := s.seq, req := s.req }
      = { placedAs u s with replies := u.replies ++ [u.result] } := by rw [placedAs, ← hprim]; rfl
    _ = { placedAs F s with replies := s.replies ++ [F.result] } := by rw [h, ← hreplies]; rfl
    _ = { F with replies := s.replies ++ [F.result] } := by rw [hF]

/-- Settles O15: the read as a burst of one operation, and the step that sends its result. -/
theorem readCommandReplies : Obligations.ReadCommandReplies := by
  intro s address hinv hfree
  refine ⟨exec_cmdRead_of_free hfree none, fun honly => ?_⟩
  obtain ⟨-, -, -, htodo, hreply⟩ := (primaryFree_iff s).1 hfree
  have howing : Alone { s with prim := { s.prim with replyDue := true } } :=
    alone_of_prim (alone_of_free hinv hfree honly) _
  have hread : transactAll [.cycledRead address 0] { s with prim := { s.prim with replyDue := true } } = _ :=
    transact_prim (.cycledRead address 0) s _
  obtain ⟨k, u, hrun, halone, hprim, heq⟩ := run_burst [.cycledRead address 0] howing htodo
  rw [hread] at heq
  have htodo' : u.prim.todo = [] := by rw [hprim, htodo]
  have hreply' : u.prim.replyDue = true := by rw [hprim]
  have hpaid : { u.prim with replyDue := false } = s.prim := by rw [hprim, ← hreply]
  have hreplies : (transact (.cycledRead address 0) s).replies = s.replies := by rw [transact_eq]
  exact ⟨_, k + 1, sendReply u, exec_cmdRead_of_free hfree (some address),
    run_trans hrun (run_one (step_reply_of_alone halone htodo' hreply')),
    free_of_alone (sendReply_alone halone) htodo' rfl,
    sendReply_end (placedAs_transactAll [.cycledRead address 0] s) heq hreplies hpaid⟩

end Sys2Proof.Proofs.Runs
end

-- ==== The drain service from the open gate to its end (42_asid_ring.md section 3) ====
section
namespace Sys2Proof.Proofs.Service

open Sys2Proof Sys2Proof.Machine Sys2Proof.Proofs.BusOperations Sys2Proof.Proofs.Invariants
  Sys2Proof.Proofs.Order Sys2Proof.Proofs.RingQueue Sys2Proof.Proofs.Transactions Sys2Proof.Proofs.Runs

/-! ## What the transaction of an entry sees (R123) -/

/-- The states agree on what a cycled write reads and on what it leaves to be seen. -/
structure SameBus (u v : State) : Prop where
  par : u.par = v.par
  cyc : u.cyc = v.cyc
  mute : u.mute = v.mute
  rt : u.rt = v.rt
  shadow : u.shadow = v.shadow
  trace : u.trace = v.trace

theorem sameBus_trans {u v w : State} (huv : SameBus u v) (hvw : SameBus v w) : SameBus u w :=
  ⟨huv.par.trans hvw.par, huv.cyc.trans hvw.cyc, huv.mute.trans hvw.mute, huv.rt.trans hvw.rt,
    huv.shadow.trans hvw.shadow, huv.trace.trans hvw.trace⟩

theorem sameBus_transact_entry {u v : State} (h : SameBus u v) (w : BitVec 32) :
    SameBus (transact (entryRequest w) u) (transact (entryRequest w) v) := by
  simp only [entryRequest, transact, transactWrite, h.rt]
  split
  · exact ⟨h.par, h.cyc, h.mute, rfl, h.shadow, h.trace⟩
  · refine ⟨h.par, ?_, h.mute, rfl, ?_, ?_⟩
    · simp only [h.cyc, h.par]
    · simp only [h.shadow]
    · simp only [h.trace, h.cyc, h.mute]

theorem sameBus_completed {s : State} (h : Ready s) (r : BusRequest) : SameBus (completed r s) (transact r s) := by
  rw [← busPart_completed h r]
  exact ⟨rfl, rfl, rfl, rfl, rfl, rfl⟩

/-! ## The oldest entry of a queue (R180) -/

theorem read_ne_write_of_queue {r : Ring} (h : RingInv r) (hqueue : queue r ≠ []) : r.read ≠ r.write := by
  intro hempty
  have hfill := (Ring.fill_eq_zero r h.read_lt).2 hempty
  exact hqueue (List.eq_nil_of_length_eq_zero (by rw [queue_length, hfill]))

/-- More than a frame's bytes are more than a frame's entries. -/
theorem queue_length_of_frame {r : Ring} (h : RingInv r) (hfill : 112 < r.fill) : 28 < (queue r).length := by
  have haligned := RateAdjustment.ringInv_fill_aligned h
  rw [queue_length]
  omega

/-- One step further into a list. -/
theorem take_drop_succ {α : Type} {l after : List α} {x : α} {n : Nat} (h : l.drop n = x :: after) :
    l.take (n + 1) = l.take n ++ [x] ∧ l.drop (n + 1) = after := by
  constructor
  · rw [List.take_add, h]; rfl
  · rw [← List.drop_drop, h]; rfl

/-! ## A service that has delivered `n` entries (R176) -/

/-- `a` is a state of the service of `s`, between two of its entries, with `n` of them delivered. -/
structure Serving (s : State) (n : Nat) (a : State) : Prop where
  inv : Inv a
  quiet : quiet a = true
  service : a.drain.inService = true
  left : a.drain.left + n = 28
  delivered : a.drain.delivered = n
  inbox : a.inbox = []
  pace : a.pace = s.pace
  prim : a.prim = s.prim
  queue : queue a.ring = (queue s.ring).drop n
  write : a.ring.write = s.ring.write
  size : a.ring.size = s.ring.size
  mem : a.ring.mem = s.ring.mem
  bus : SameBus a (((Machine.queue s.ring).take n).foldl (fun v w => transact (entryRequest w) v) s)

theorem serving_begun {s : State} (hinv : Inv s) (hopen : gateOpen s = true) (hinbox : s.inbox = []) :
    Serving s 0 (serviceBegun 28 s) where
  inv := inv_serviceBegun hinv hopen le_rfl
  quiet := by
    obtain ⟨-, -, -, -, hidle, hvalid⟩ := (gateOpen_iff s).1 hopen
    exact (quiet_iff _).2 ⟨hidle, hvalid⟩
  service := rfl
  left := rfl
  delivered := rfl
  inbox := hinbox
  pace := rfl
  prim := rfl
  queue := rfl
  write := rfl
  size := rfl
  mem := rfl
  bus := ⟨rfl, rfl, rfl, rfl, rfl, rfl⟩

section
variable {s a : State} {n : Nat} (h : Serving s n a)
include h

theorem serving_ready : Ready a where
  no_request := ((quiet_iff a).1 h.quiet).2
  idle := ((quiet_iff a).1 h.quiet).1
  idle_pins := h.inv.seq.idle_pins ((quiet_iff a).1 h.quiet).1
  xfer_pos := tXfer_pos h.inv

theorem serving_entryReady (hn : n < 28) (hqueue : 28 < (queue s.ring).length) : entryReady a = true := by
  obtain ⟨hidle, hvalid⟩ := (quiet_iff a).1 h.quiet
  have hleft := h.left
  refine (entryReady_iff a).2 ⟨h.service, hidle, hvalid, by omega, read_ne_write_of_queue h.inv.ring ?_⟩
  rw [h.queue]
  exact List.ne_nil_of_length_pos (by rw [List.length_drop]; omega)

/-- Without pauses the handler presents the oldest entry's cycled write. -/
theorem step_of_serving (hready : entryReady a = true) (hpauses : s.pace.handler = []) :
    step a = .next (present (entryRequest (entryWord a.ring a.ring.read)) (entryTaken a)) := by
  have hnone : a.pace.handler = [] := by rw [h.pace, hpauses]
  have hsame : { a with pace := { a.pace with handler := a.pace.handler.tail } } = a := by
    rw [hnone, List.tail_nil, ← hnone]
  have hdue : paceDue a.pace.handler = true := by rw [hnone]; rfl
  rw [step_of_entry (dueEnv_of_empty h.inbox) hready, if_pos hdue, hsame]
  exact exec_ringEntry_of_ready hready _ _ _

theorem serving_next (hn : n < 28) (hqueue : 28 < (queue s.ring).length) (hpauses : s.pace.handler = []) :
    ∃ k u, Sys2Proof.core.run k a = .next u ∧ Serving s (n + 1) u := by
  have hready := serving_entryReady h hn hqueue
  have hstep := step_of_serving h hready hpauses
  have htaken : Ready (entryTaken a) :=
    ⟨(serving_ready h).no_request, (serving_ready h).idle, (serving_ready h).idle_pins, (serving_ready h).xfer_pos⟩
  have hrun := run_completed htaken (entryRequest (entryWord a.ring a.ring.read)) h.inbox
  have hbus := sameBus_completed htaken (entryRequest (entryWord a.ring a.ring.read))
  have hring : (completed (entryRequest (entryWord a.ring a.ring.read)) (entryTaken a)).ring = popped a.ring :=
    (ticks_ring _ _).trans (by simp [entryTaken])
  obtain ⟨hservice, hleft, hdelivered⟩ := ticks_service
    (completionTicks (entryRequest (entryWord a.ring a.ring.read)) (entryTaken a))
    (present (entryRequest (entryWord a.ring a.ring.read)) (entryTaken a))
  obtain ⟨-, -, -, hpos, hne⟩ := (entryReady_iff a).1 hready
  have hcons : (queue s.ring).drop n = entryWord a.ring a.ring.read :: queue (popped a.ring) :=
    h.queue.symm.trans (queue_eq_cons h.inv.ring hne)
  obtain ⟨htake, hdrop⟩ := take_drop_succ hcons
  refine ⟨_, _, run_trans (run_one hstep) hrun,
    { inv := inv_ticks (inv_present (inv_entryTaken h.inv hready) _) _
      quiet := completed_quiet htaken _
      service := hservice.trans (by simp [entryTaken, h.service])
      left := ?left
      delivered := hdelivered.trans (by simp [entryTaken, h.delivered])
      inbox := ticks_inbox (by simpa [entryTaken] using h.inbox) _
      pace := (completed_pace htaken _).trans h.pace
      prim := (completed_prim _ _).trans h.prim
      queue := by rw [hring, hdrop]
      write := by rw [hring]; exact h.write
      size := by rw [hring]; exact h.size
      mem := by rw [hring]; exact h.mem
      bus := ?bus }⟩
  case left =>
    have hkept := h.left
    have hless : (completed (entryRequest (entryWord a.ring a.ring.read)) (entryTaken a)).drain.left =
        a.drain.left - 1 := hleft.trans (by simp [entryTaken])
    omega
  case bus =>
    have hsame : SameBus (entryTaken a) a := ⟨rfl, rfl, rfl, rfl, rfl, rfl⟩
    rw [htake, List.foldl_append, List.foldl_cons, List.foldl_nil]
    exact sameBus_trans hbus (sameBus_transact_entry (sameBus_trans hsame h.bus) _)

/-- With its frame delivered the service ends. -/
theorem step_of_served (h28 : n = 28) : step a = .next (endService a) := by
  have hleft := h.left
  refine step_of_service_end (dueEnv_of_empty h.inbox) h.quiet h.service (Bool.eq_false_iff.2 fun hready => ?_)
  obtain ⟨-, -, -, hpos, -⟩ := (entryReady_iff a).1 hready
  omega

end

theorem serving_reaches {s : State} (hinv : Inv s) (hopen : gateOpen s = true) (hresumed : s.resumed = false)
    (hinbox : s.inbox = []) (hpauses : s.pace.handler = []) (hfill : 112 < s.ring.fill) {n : Nat} (hn : n ≤ 28) :
    ∃ k a, Sys2Proof.core.run k s = .next a ∧ Serving s n a := by
  induction n with
  | zero =>
    have hfirst : gateFirst s = true := by simp [gateFirst, hopen, hresumed]
    have hstep : step s = .next (serviceBegun 28 s) := by
      rw [step_of_gate hfirst, exec_evTimer_of_open hopen, startService_of_frame hfill]
    exact ⟨1, _, run_one hstep, serving_begun hinv hopen hinbox⟩
  | succ n ih =>
    obtain ⟨k, a, hrun, hserving⟩ := ih (Nat.le_of_succ_le hn)
    obtain ⟨k', u, hrun', hserving'⟩ :=
      serving_next hserving hn (queue_length_of_frame hinv.ring hfill) hpauses
    exact ⟨k + k', u, run_trans hrun hrun', hserving'⟩

/-! ## The whole service -/

/-- The end of a service that has delivered its frame (R176). -/
def served (a : State) : State :=
  { a with drain := { a.drain with idleCount := 0, inService := false, left := 0, delivered := 0 }, resumed := true }

/-- From an open gate and more than a frame queued, a service runs to its end. -/
theorem service_completes {s : State} (hinv : Inv s) (hopen : gateOpen s = true) (hresumed : s.resumed = false)
    (hinbox : s.inbox = []) (hpauses : s.pace.handler = []) (hfill : 112 < s.ring.fill) :
    ∃ k a, Sys2Proof.core.run k s = .next (served a) ∧ Serving s 28 a := by
  obtain ⟨k, a, hrun, hserving⟩ := serving_reaches hinv hopen hresumed hinbox hpauses hfill le_rfl
  have hdelivered : 0 < a.drain.delivered := by rw [hserving.delivered]; decide
  have hend : step a = .next (served a) := (step_of_served hserving rfl).trans (by rw [endService_delivered hdelivered]; rfl)
  exact ⟨k + 1, a, run_trans hrun (run_one hend), hserving⟩

/-- Settles O44: the end of the service of its 28 entries. -/
theorem serviceDeliversOldestFrame : Obligations.ServiceDeliversOldestFrame := by
  intro s hinv hopen hresumed hinbox hpauses hfill
  obtain ⟨k, a, hrun, h⟩ := service_completes hinv hopen hresumed hinbox hpauses hfill
  exact ⟨k, served a, hrun, rfl, h.bus.trace, h.bus.shadow, h.bus.cyc, rfl, h.queue, h.write, h.size, h.mem, h.prim⟩

theorem issueNext_of_cons {s : State} {r : BusRequest} {rest : List BusRequest} (htodo : s.prim.todo = r :: rest) :
    issueNext s = present r { s with prim := { s.prim with todo := rest } } := by
  rw [issueNext, htodo]

/-- The step a service leaves to a burst without pauses (R275, log 7). -/
theorem step_of_served_burst {a : State} (hquiet : quiet a = true) (hinbox : a.inbox = [])
    (hpauses : a.pace.primary = []) {r : BusRequest} {rest : List BusRequest} (htodo : a.prim.todo = r :: rest) :
    step (served a) =
      .next (present r { served a with prim := { a.prim with todo := rest }, resumed := false }) := by
  have hmid : midCommand (served a) = true := by simp [midCommand, served, htodo]
  have hturn : primaryHasStep (served a) = true := by
    rw [primaryHasStep, if_pos hmid]
    simp [served, hpauses, paceDue]
  have hresumed : (served a).resumed = true := rfl
  have hfirst : gateFirst (served a) = false := by simp [gateFirst, hturn, hresumed]
  have hne : (served a).prim.todo ≠ [] := by simp [served, htodo]
  have hdue : paceDue (served a).pace.primary = true := by simp [served, hpauses, paceDue]
  have hpace : { (served a).pace with primary := (served a).pace.primary.tail } = (served a).pace := by
    rw [show (served a).pace.primary = [] from hpauses, List.tail_nil, ← hpauses]
    rfl
  rw [step_of_burst hfirst (dueEnv_of_empty hinbox) hquiet rfl hne, continueBurst, if_pos hdue, hpace]
  exact congrArg Host.Outcome.next (issueNext_of_cons (s := { served a with resumed := false }) htodo)

/-- Settles O45: the service as for O44, then the burst's next operation. -/
theorem serviceComesBetweenBurstOperations : Obligations.ServiceComesBetweenBurstOperations := by
  intro s r rest hinv hopen hresumed hinbox hpauses hprimary htodo hfill
  obtain ⟨k, a, hrun, h⟩ := service_completes hinv hopen hresumed hinbox hpauses hfill
  exact ⟨k, served a, hrun, rfl, h.prim, h.bus.trace, h.queue,
    step_of_served_burst h.quiet h.inbox (by rw [h.pace, hprimary]) (by rw [h.prim, htodo])⟩

end Sys2Proof.Proofs.Service
end
